-- ==== Sys2Proof/Word.lean ====
section
/-! DEFINITION. The two word sizes of HFT (00_scope.md R4, R7): the 8-bit byte and the 12-bit command word. -/

namespace Sys2Proof

/-- A byte: bit 7 is its most significant, its "high bit" (R7). -/
abbrev Byte := BitVec 8

/-- A 12-bit word of the command port (R4, R60). -/
abbrev CmdWord := BitVec 12

end Sys2Proof
end

