-- ==== Sys2Proof/Syntax.lean ====
section
/-! DEFINITION. The eight commands of HFT, one constructor per row of spec/opcode_table.json (30_encoding.md R61).
"Instruction" is the spec's "command" (00_scope.md R2). Reserved words are no command: they have no constructor and are
answered by the step (R67). -/

namespace Sys2Proof

/-- One command with its operand byte, `arg` as it stands (R62). -/
inductive Instr where
  /-- `NOP` (R171). -/
  | nop
  /-- `CRC_INIT` (R83). -/
  | crcInit
  /-- `CRC_UPD b` (R84). -/
  | crcUpd (b : Byte)
  /-- `FB_ARM n` (R101); every `n` is a command, 11 to 255 are answered `ERR_BAD_ARG`. -/
  | fbArm (n : Byte)
  /-- `FB_PUSH b` (R102). -/
  | fbPush (b : Byte)
  /-- `KP_PARSE` (R121). -/
  | kpParse
  /-- `HR_BYTE b` (R141). -/
  | hrByte (b : Byte)
  /-- `RD a` (R172); every `a` is a command, the unmapped addresses are answered `ERR_BAD_ARG`. -/
  | rd (a : Byte)
deriving DecidableEq, Repr

end Sys2Proof
end

