-- ==== Sys2Proof/Decode.lean ====
section
/-! DEFINITION. The decoder and the encoder of the command word (30_encoding.md R60 to R62, R67). The decoder is total
on the 4096 words and rejects the reserved ones by name. -/

namespace Sys2Proof

/-- Why a command word is reserved (R67). -/
inductive Reserved where
  /-- `op` 0x8 to 0xF. -/
  | unassignedOp
  /-- `op` 0x0, 0x1 or 0x5 with `arg` not 0x00. -/
  | nonzeroArg
deriving DecidableEq, Repr

/-- The field `op`, bits 11:8 (R60). -/
def opField (w : CmdWord) : BitVec 4 := w.extractLsb' 8 4

/-- The field `arg`, bits 7:0 (R60). -/
def argField (w : CmdWord) : Byte := w.extractLsb' 0 8

/-- A command without an operand: `arg` must be 0x00 (R62). -/
def noOperand (i : Instr) (arg : Byte) : Except Reserved Instr :=
  if arg = 0x00#8 then .ok i else .error .nonzeroArg

/-- The command a word stands for, or why it is reserved (R61, R67). -/
def decode (w : CmdWord) : Except Reserved Instr :=
  match (opField w).toNat with
  | 0x0 => noOperand .nop (argField w)
  | 0x1 => noOperand .crcInit (argField w)
  | 0x2 => .ok (.crcUpd (argField w))
  | 0x3 => .ok (.fbArm (argField w))
  | 0x4 => .ok (.fbPush (argField w))
  | 0x5 => noOperand .kpParse (argField w)
  | 0x6 => .ok (.hrByte (argField w))
  | 0x7 => .ok (.rd (argField w))
  | _ => .error .unassignedOp

/-- The word of the host's table numbering as a 12-bit command word. The lowest `nbits` bits of `w` count; a value
that needs more than 12 bits is no command word (DESIGN CHOICE, safe, log entry 17). -/
def tableWord (nbits w : Nat) : Option CmdWord :=
  if w % 2 ^ nbits < 2 ^ 12 then some (BitVec.ofNat 12 (w % 2 ^ nbits)) else none

/-- What the decoder reads from a word numbered as spec/opcode_table.json numbers it. -/
def decodeTableWord (nbits w : Nat) : Option Instr :=
  match tableWord nbits w with
  | none => none
  | some c =>
    match decode c with
    | .ok i => some i
    | .error _ => none

/-- The `op` of each command (R61). -/
def Instr.op : Instr → BitVec 4
  | .nop => 0x0#4
  | .crcInit => 0x1#4
  | .crcUpd _ => 0x2#4
  | .fbArm _ => 0x3#4
  | .fbPush _ => 0x4#4
  | .kpParse => 0x5#4
  | .hrByte _ => 0x6#4
  | .rd _ => 0x7#4

/-- The `arg` of each command, 0x00 for a command without an operand (R61, R62). -/
def Instr.arg : Instr → Byte
  | .nop => 0x00#8
  | .crcInit => 0x00#8
  | .crcUpd b => b
  | .fbArm n => n
  | .fbPush b => b
  | .kpParse => 0x00#8
  | .hrByte b => b
  | .rd a => a

/-- The encoder: `op` in bits 11:8, `arg` in bits 7:0 (R60, R61). -/
def encode (i : Instr) : CmdWord := i.op ++ i.arg

end Sys2Proof
end

