-- ==== Sys2Proof/Config.lean ====
section
/-! DEFINITION. The named parameters of 00_scope.md R3 (each with the spec's value; DESIGN CHOICE of the spec, D25: the
literals are unaudited, log entry 11, unsafe) and the one free value of the model (93_implementation_defined.md U1). -/

namespace Sys2Proof.Config

/-- `CRC_POLY` (R3). -/
abbrev crcPoly : Byte := 0x07#8
/-- `CRC_SEED` (R3). -/
abbrev crcSeed : Byte := 0x00#8
/-- `CRC_ROUNDS` (R3). -/
abbrev crcRounds : Nat := 8
/-- `FB_DEPTH` (R3): the storage of the frame buffer, in bytes. -/
abbrev fbDepth : Nat := 10
/-- `KISS_FRAME_LEN` (R3). -/
abbrev kissFrameLen : Nat := 10
/-- `KISS_CRC_SPAN` (R3): the checksum covers bytes 0 to 8. -/
abbrev kissCrcSpan : Nat := 9
/-- `HW_SENTINEL` (R3). -/
abbrev hwSentinel : Byte := 0x9B#8
/-- `HW_PKT_LEN` (R3). -/
abbrev hwPktLen : Nat := 18
/-- `HW_SKIP_COUNT` (R3). -/
abbrev hwSkipCount : Nat := 11

/-- FREE VALUE (`unspecified_8`, R174, U1; log entry 5): the byte a read of a never-written cell gives, fresh for
every draw. It has no body, so no claim can rest on what it is. -/
opaque freeByte : Nat → Byte

end Sys2Proof.Config
end

