-- ==== Sys2Proof/Machine/State.lean ====
section
/-! DEFINITION. The state of HFT (10_state.md, and the port of 30_encoding.md R73) as plain data, its value after reset
(70_reset_and_hazards.md R200), and its named updates. -/

namespace Sys2Proof.Machine

/-- The outcome names of the response status (30_encoding.md R64). `Machine.statusCode` gives the codes. -/
inductive Status where
  /-- 0x0: the command did what it is for. -/
  | ok
  /-- 0x1: the word is not an assigned encoding. -/
  | errIllegalOp
  /-- 0x2: operand out of range. -/
  | errBadArg
  /-- 0x3: buffer already complete, byte dropped. -/
  | fbDropped
  /-- 0x4: frame complete, checksum mismatch. -/
  | kpCrcFail
  /-- 0x5: no complete 10-byte frame in the buffer. -/
  | kpNotReady
  /-- 0x6: byte discarded because `HR_SKIP > 0`. -/
  | hrSkipped
  /-- 0x7: idle and the byte is not the sentinel. -/
  | hrIdle
  /-- 0x8: idle and the byte is the sentinel. -/
  | hrSync
  /-- 0x9: second sentinel straight after the first. -/
  | hrCollision
  /-- 0xA: byte stored, packet not yet full. -/
  | hrStored
  /-- 0xB: byte stored as the 18th. -/
  | hrPktReady
deriving DecidableEq, Repr

/-- A response (R63): `status` and `data`. `Machine.responseWord` gives its 12-bit word. -/
structure Response where
  status : Status
  data : Byte
deriving DecidableEq, Repr

/-- The inputs of the port in one clock cycle (R73). -/
structure PortIn where
  rst : Bool
  cmdValid : Bool
  cmd : CmdWord
deriving DecidableEq, Repr

/-- A cycle in which nothing is presented: `rst = 0`, `cmd_valid = 0` (R73). -/
def PortIn.idle : PortIn := ⟨false, false, 0x000#12⟩

/-- A cycle that presents the command word `w` (R73). -/
def PortIn.command (w : CmdWord) : PortIn := ⟨false, true, w⟩

/-- A cycle with `rst = 1` and no command (R200). -/
def PortIn.reset : PortIn := ⟨true, false, 0x000#12⟩

/-- A reason to stop with a fault. There is none: HFT "never transfers control, saves state, changes a mode or stops"
(60_exceptions.md R180; 93_implementation_defined.md, "no behaviour with treatment `fault` or `stuck`"), so the type is
empty and nobody can raise one (log entry 9). -/
inductive Fault where
deriving DecidableEq, Repr

/-- A reason to refuse. -/
inductive Refusal where
  /-- An instruction without a meaning yet; only an arm of `exec` could raise it, and no arm does. Safe. -/
  | notModelled (mnemonic : String)
deriving DecidableEq, Repr

/-- The state of HFT (10_state.md section 9), the port's pending inputs and its response output (R73), and the counter
of free bytes drawn. The data cells are optional bytes, absent until a command writes them, as R32 asks. -/
structure State where
  /-- `CRC_ACC` (R22). -/
  crcAcc : Byte
  /-- `FB_POS` (R23). -/
  fbPos : BitVec 4
  /-- `FB_CAP` (R24). -/
  fbCap : BitVec 4
  /-- `FB_DATA[0..9]` (R25, R32). -/
  fbData : Vector (Option Byte) 10
  /-- `K_FRAME[0..8]` (R27, R32). -/
  kFrame : Vector (Option Byte) 9
  /-- `HR_CNT` (R28). -/
  hrCnt : BitVec 5
  /-- `HR_SKIP` (R29). -/
  hrSkip : BitVec 4
  /-- `HP_DATA[0..17]` (R30, R32). -/
  hpData : Vector (Option Byte) 18
  /-- The response output: `rsp_valid = 0` is `none`, `rsp_valid = 1` with `rsp` is `some` (R73; log entry 2). -/
  rsp : Option Response
  /-- The port's input cycles still to come, the next one first (R73; DESIGN CHOICE, safe, log entry 1). -/
  port : List PortIn
  /-- The model's own counter of free bytes drawn (DESIGN CHOICE, safe, log entry 5). -/
  draws : Nat
deriving DecidableEq, Repr

/-- The machine right after reset (R200, R201): the control registers 0, every cell absent, no response presented;
nothing presented on the port, no free byte drawn. -/
def State.reset : State where
  crcAcc := 0x00#8
  fbPos := 0#4
  fbCap := 0#4
  fbData := Vector.replicate 10 none
  kFrame := Vector.replicate 9 none
  hrCnt := 0#5
  hrSkip := 0#4
  hpData := Vector.replicate 18 none
  rsp := none
  port := []
  draws := 0

/-! The named updates, one per field. -/

/-- `CRC_ACC <- v`. -/
def State.setCrcAcc (s : State) (v : Byte) : State := { s with crcAcc := v }
/-- `FB_POS <- v`. -/
def State.setFbPos (s : State) (v : BitVec 4) : State := { s with fbPos := v }
/-- `FB_CAP <- v`. -/
def State.setFbCap (s : State) (v : BitVec 4) : State := { s with fbCap := v }
/-- The ten cells of `FB_DATA`. -/
def State.setFbData (s : State) (v : Vector (Option Byte) 10) : State := { s with fbData := v }
/-- The nine cells of `K_FRAME`. -/
def State.setKFrame (s : State) (v : Vector (Option Byte) 9) : State := { s with kFrame := v }
/-- `HR_CNT <- v`. -/
def State.setHrCnt (s : State) (v : BitVec 5) : State := { s with hrCnt := v }
/-- `HR_SKIP <- v`. -/
def State.setHrSkip (s : State) (v : BitVec 4) : State := { s with hrSkip := v }
/-- The eighteen cells of `HP_DATA`. -/
def State.setHpData (s : State) (v : Vector (Option Byte) 18) : State := { s with hpData := v }
/-- What the response output presents. -/
def State.setRsp (s : State) (v : Option Response) : State := { s with rsp := v }
/-- The input cycles still to come. -/
def State.setPort (s : State) (v : List PortIn) : State := { s with port := v }
/-- The count of free bytes drawn. -/
def State.setDraws (s : State) (v : Nat) : State := { s with draws := v }

/-- How one command ends: always in a next state (R6, R180). -/
abbrev Result := Host.Outcome State Fault Refusal

end Sys2Proof.Machine
end

