-- ==== Sys2Proof/Machine/Flags.lean ====
section
/-! DEFINITION. The flag-like view `FB_STAT` (10_state.md R26) and the coding of the response word (30_encoding.md R63,
R64). HFT has no condition codes, carry, overflow or predicate (R26), so there is no other flag computation. -/

namespace Sys2Proof.Machine

/-- `FB_STAT.COMPLETE`: 1 exactly when `FB_POS == FB_CAP` (R26); the source's `is_complete()`. -/
def fbComplete (s : State) : Bool := s.fbPos == s.fbCap

/-- `FB_STAT`: bit 0 is `COMPLETE`, bits 7:1 read as 0 (R26). -/
def fbStat (s : State) : Byte := if fbComplete s then 0x01#8 else 0x00#8

/-- The status codes of R64. -/
def statusCode : Status → BitVec 4
  | .ok => 0x0#4
  | .errIllegalOp => 0x1#4
  | .errBadArg => 0x2#4
  | .fbDropped => 0x3#4
  | .kpCrcFail => 0x4#4
  | .kpNotReady => 0x5#4
  | .hrSkipped => 0x6#4
  | .hrIdle => 0x7#4
  | .hrSync => 0x8#4
  | .hrCollision => 0x9#4
  | .hrStored => 0xA#4
  | .hrPktReady => 0xB#4

/-- The 12-bit response word: `status` in bits 11:8, `data` in bits 7:0 (R63). -/
def responseWord (r : Response) : BitVec 12 := statusCode r.status ++ r.data

/-- The port signal `rsp_valid` (R73). -/
def rspValid (s : State) : Bool := s.rsp.isSome

/-- The port signal `rsp` while `rsp_valid` is 1 (R73). -/
def rspWord (s : State) : Option (BitVec 12) := s.rsp.map responseWord

end Sys2Proof.Machine
end

