-- ==== Sys2Proof/Machine/Operands.lean ====
section
/-! DEFINITION. The operand forms of the commands: a data byte as it stands, a capacity, a register-space address
(30_encoding.md R62), the map of the register space (20_memory.md R41), and the assembly of multi-byte fields (R66). -/

namespace Sys2Proof.Machine

/-- `zext_8` (00_scope.md section 6). -/
def zext8 {w : Nat} (v : BitVec w) : Byte := v.setWidth 8

/-- `be16(h, l) = {h, l}` (R66). -/
def be16 (h l : Byte) : BitVec 16 := h ++ l

/-- `be24(h, m, l) = {h, m, l}` (R66). -/
def be24 (h m l : Byte) : BitVec 24 := (h ++ m) ++ l

/-- The capacity operand of `FB_ARM`: 0 to 10 are legal, `FB_CAP` takes `n[3:0]`; 11 to 255 are refused (R62, R101). -/
def capacityOperand (n : Byte) : Option (BitVec 4) :=
  if n.toNat ≤ Config.fbDepth then some (n.setWidth 4) else none

/-- The named bytes of the register space (R41). -/
inductive Reg where
  | crcAcc
  | fbPos
  | fbCap
  | fbStat
  | hrCnt
  | hrSkip
  | fbData (i : Fin 10)
  | kFrame (i : Fin 9)
  | hpData (i : Fin 18)
deriving DecidableEq, Repr

/-- The address map of R41: what an address names, `none` for the unmapped ones. -/
def regAt (a : Byte) : Option Reg :=
  if a = 0x00#8 then some .crcAcc
  else if a = 0x01#8 then some .fbPos
  else if a = 0x02#8 then some .fbCap
  else if a = 0x03#8 then some .fbStat
  else if a = 0x04#8 then some .hrCnt
  else if a = 0x05#8 then some .hrSkip
  else if h : 0x10 ≤ a.toNat ∧ a.toNat ≤ 0x19 then some (.fbData ⟨a.toNat - 0x10, by omega⟩)
  else if h : 0x20 ≤ a.toNat ∧ a.toNat ≤ 0x28 then some (.kFrame ⟨a.toNat - 0x20, by omega⟩)
  else if h : 0x40 ≤ a.toNat ∧ a.toNat ≤ 0x51 then some (.hpData ⟨a.toNat - 0x40, by omega⟩)
  else none

/-- The address of a named byte (R41), for the register names of the textual form (R69). -/
def regAddr : Reg → Byte
  | .crcAcc => 0x00#8
  | .fbPos => 0x01#8
  | .fbCap => 0x02#8
  | .fbStat => 0x03#8
  | .hrCnt => 0x04#8
  | .hrSkip => 0x05#8
  | .fbData i => BitVec.ofNat 8 (0x10 + i.val)
  | .kFrame i => BitVec.ofNat 8 (0x20 + i.val)
  | .hpData i => BitVec.ofNat 8 (0x40 + i.val)

end Sys2Proof.Machine
end

