-- ==== Sys2Proof/Machine/Ops.lean ====
section
/-! DEFINITION. The named operations every meaning is made of: answering, reading and storing cells, the register space
as `RD` sees it, and what a clock edge does at the port. HFT takes no exception and returns from none (60_exceptions.md
R180, R186): `respond` with an error status stands in that place. -/

namespace Sys2Proof.Machine

/-- `respond(status, data)` (00_scope.md section 6): the step's response, every error outcome included (R180). -/
def respond (st : Status) (data : Byte) (s : State) : Result :=
  .next (s.setRsp (some ⟨st, data⟩))

/-! ### Data cells (R32, R174) -/

/-- Reading one data cell: the byte it holds, or a fresh free byte if no command has written it since reset (R174, U1).
The second part is the count of free bytes drawn after the read. -/
def readCell (c : Option Byte) (draws : Nat) : Byte × Nat :=
  match c with
  | some b => (b, draws)
  | none => (Config.freeByte draws, draws + 1)

/-- Reading cells one after another. -/
def readCells : List (Option Byte) → Nat → List Byte × Nat
  | [], n => ([], n)
  | c :: cs, n =>
    let r := readCell c n
    let rest := readCells cs r.2
    (r.1 :: rest.1, rest.2)

/-- `FB_DATA[i] <- b`. An index outside the array, which no reachable state gives (20_memory.md R46), stores nothing
(DESIGN CHOICE, unsafe only in states R31 excludes, log entry 6). -/
def storeFbData (i : Nat) (b : Byte) (s : State) : State :=
  s.setFbData (s.fbData.setIfInBounds i (some b))

/-- `HP_DATA[i] <- b`, with the same convention (R46, log entry 6). -/
def storeHpData (i : Nat) (b : Byte) (s : State) : State :=
  s.setHpData (s.hpData.setIfInBounds i (some b))

/-- `for i in 0..8: K_FRAME[i] <- FB_DATA[i]`, all nine at once (42_kiss_parser.md R121). -/
def latchFrame (s : State) : State :=
  s.setKFrame (Vector.ofFn fun i : Fin 9 => s.fbData[i.val])

/-! ### The register space (20_memory.md R41, 44_system_commands.md R172) -/

/-- The byte a named register reads as, zero-extended, and the count of free bytes drawn after the read (R172). -/
def readReg (r : Reg) (s : State) : Byte × Nat :=
  match r with
  | .crcAcc => (s.crcAcc, s.draws)
  | .fbPos => (zext8 s.fbPos, s.draws)
  | .fbCap => (zext8 s.fbCap, s.draws)
  | .fbStat => (fbStat s, s.draws)
  | .hrCnt => (zext8 s.hrCnt, s.draws)
  | .hrSkip => (zext8 s.hrSkip, s.draws)
  | .fbData i => readCell s.fbData[i] s.draws
  | .kFrame i => readCell s.kFrame[i] s.draws
  | .hpData i => readCell s.hpData[i] s.draws

/-- `MemRead(a, 1)` with the count of free bytes drawn after it; `none` at an unmapped address (R172, R51). -/
def memRead (a : Byte) (s : State) : Option (Byte × Nat) :=
  (regAt a).map fun r => readReg r s

/-! ### The port (30_encoding.md R73) -/

/-- The inputs of the coming clock edge; with nothing left to present, an idle cycle (log entry 3). -/
def nextCycle (s : State) : PortIn := s.port.headD PortIn.idle

/-- The state with that cycle's inputs taken off the port. -/
def takeCycle (s : State) : State := s.setPort s.port.tail

/-- A rising edge with `rst = 1` (R200): the control registers take their reset values, every data cell counts as never
written, `rsp_valid` is 0. The cycles still to come are the environment's and stay (log entry 12), and the free bytes
already drawn stay drawn (log entry 5). -/
def resetEdge (s : State) : State :=
  (State.reset.setPort s.port).setDraws s.draws

/-- A rising edge with `rst = 0` and `cmd_valid = 0`: nothing is accepted, no response is presented (R5, R73). -/
def idleEdge (s : State) : State := s.setRsp none

/-- A reserved command word: no state change, `ERR_ILLEGAL_OP` with data 0x00 (R67). -/
def rejectWord (s : State) : Result := respond .errIllegalOp 0x00#8 s

/-- The cycle that presents the host's table word `w`; a number that is no 12-bit word presents nothing (log entry 17). -/
def tableCycle (nbits w : Nat) : PortIn :=
  match tableWord nbits w with
  | some c => PortIn.command c
  | none => PortIn.idle

end Sys2Proof.Machine
end

