-- ==== Sys2Proof/Machine/Crc.lean ====
section
/-! DEFINITION. The Checksum Unit (40_crc8.md): the pure function `crc8` (R80 to R82) and the byte-serial generator's
commands `CRC_INIT` (R83) and `CRC_UPD` (R84). -/

namespace Sys2Proof.Machine

/-- `crc8_round` (R81): the high bit is tested before the shift; the constant is XORed into the shifted value. -/
def crc8Round (v : Byte) : Byte :=
  if v.msb then (v <<< 1) ^^^ Config.crcPoly else v <<< 1

/-- `n` rounds, one after another. -/
def crc8Rounds : Nat → Byte → Byte
  | 0, v => v
  | n + 1, v => crc8Rounds n (crc8Round v)

/-- `crc8_byte` (R81): XOR the byte into the running value, then 8 rounds. -/
def crc8Byte (c b : Byte) : Byte := crc8Rounds Config.crcRounds (c ^^^ b)

/-- `crc8` of a sequence, index 0 first, from the seed (R82). -/
def crc8 (bs : List Byte) : Byte := bs.foldl crc8Byte Config.crcSeed

/-- `CRC_INIT` (R83). -/
def execCrcInit (s : State) : Result :=
  respond .ok 0x00#8 (s.setCrcAcc Config.crcSeed)

/-- `CRC_UPD b` (R84): the data byte is the new `CRC_ACC`. -/
def execCrcUpd (b : Byte) (s : State) : Result :=
  let v := crc8Byte s.crcAcc b
  respond .ok v (s.setCrcAcc v)

end Sys2Proof.Machine
end

