-- ==== Sys2Proof/Machine/FrameBuffer.lean ====
section
/-! DEFINITION. The Frame Buffer (41_frame_buffer.md): `FB_ARM` (R101) and `FB_PUSH` (R102). -/

namespace Sys2Proof.Machine

/-- `FB_ARM n` (R101): no cell is written. -/
def execFbArm (n : Byte) (s : State) : Result :=
  match capacityOperand n with
  | some c => respond .ok 0x00#8 ((s.setFbPos 0#4).setFbCap c)
  | none => respond .errBadArg 0x00#8 s

/-- `FB_PUSH b` (R102): the test is equality of position and capacity. -/
def execFbPush (b : Byte) (s : State) : Result :=
  if s.fbPos = s.fbCap then
    respond .fbDropped (zext8 s.fbPos) s
  else
    let p := s.fbPos + 1#4
    respond .ok (zext8 p) ((storeFbData s.fbPos.toNat b s).setFbPos p)

end Sys2Proof.Machine
end

