-- ==== Sys2Proof/Machine/Kiss.lean ====
section
/-! DEFINITION. The KISS frame Parser (42_kiss_parser.md): `KP_PARSE` (R121), the five field views of `K_FRAME` (R124),
and the open parameter `KISS_FIELD_SIGNEDNESS` of their consumers (R128). -/

namespace Sys2Proof.Machine

/-- The buffer holds a complete 10-byte frame: `FB_CAP == 10 and FB_POS == 10` (R123). -/
def frameReady (s : State) : Bool :=
  s.fbCap.toNat == Config.kissFrameLen && s.fbPos.toNat == Config.kissFrameLen

/-- The validity test on ten bytes: `crc8` of bytes 0 to 8 is byte 9 (R122). -/
def frameValid (bs : List Byte) : Bool :=
  bs[Config.kissCrcSpan]? == some (crc8 (bs.take Config.kissCrcSpan))

/-- `KP_PARSE` (R121). A ready buffer has all ten cells written (R31 (e)), so the read draws no free byte; in the states
R31 excludes a draw stands for the absent byte (log entry 7). -/
def execKpParse (s : State) : Result :=
  if frameReady s then
    let r := readCells s.fbData.toList s.draws
    let t := s.setDraws r.2
    let c := crc8 (r.1.take Config.kissCrcSpan)
    if frameValid r.1 then respond .ok c (latchFrame t) else respond .kpCrcFail c t
  else
    respond .kpNotReady (zext8 s.fbPos) s

/-! ### Field views (10_state.md R27, R124); `none` while a cell is absent -/

/-- A 16-bit field of two cells, the lower-numbered the more significant (20_memory.md R43). -/
def cells16 (h l : Option Byte) : Option (BitVec 16) :=
  match h, l with
  | some h, some l => some (be16 h l)
  | _, _ => none

/-- A 24-bit field of three cells, big-endian (R43). -/
def cells24 (h m l : Option Byte) : Option (BitVec 24) :=
  match h, m, l with
  | some h, some m, some l => some (be24 h m l)
  | _, _, _ => none

/-- `K_TEMP`. -/
def kTemp (s : State) : Option Byte := s.kFrame[0]
/-- `K_VOLT`. -/
def kVolt (s : State) : Option (BitVec 16) := cells16 s.kFrame[1] s.kFrame[2]
/-- `K_CURR`. -/
def kCurr (s : State) : Option (BitVec 16) := cells16 s.kFrame[3] s.kFrame[4]
/-- `K_CONS`. -/
def kCons (s : State) : Option (BitVec 16) := cells16 s.kFrame[5] s.kFrame[6]
/-- `K_RPM`. -/
def kRpm (s : State) : Option (BitVec 16) := cells16 s.kFrame[7] s.kFrame[8]

/-! ### Signedness of the fields (R128), an argument of whoever reads a number from the bits -/

/-- The two readings of a field's bits (R128). -/
inductive Signedness where
  /-- The unsigned reading. -/
  | zext
  /-- The two's complement reading. -/
  | sext
deriving DecidableEq, Repr

/-- The open parameter `KISS_FIELD_SIGNEDNESS`: a choice per field (R128, log entry 10). -/
structure KissFieldSignedness where
  temp : Signedness
  volt : Signedness
  curr : Signedness
  cons : Signedness
  rpm : Signedness
deriving DecidableEq, Repr

/-- The number a field's bits stand for under a choice (R128). -/
def fieldValue {w : Nat} (g : Signedness) (v : BitVec w) : Int :=
  match g with
  | .zext => v.toNat
  | .sext => v.toInt

/-- The five fields as numbers. -/
structure KissReading where
  temp : Int
  volt : Int
  curr : Int
  cons : Int
  rpm : Int
deriving DecidableEq, Repr

/-- What a consumer reads from `K_FRAME` under the parameter, once all nine cells are written (R124, R128). -/
def kissReading (g : KissFieldSignedness) (s : State) : Option KissReading :=
  match kTemp s, kVolt s, kCurr s, kCons s, kRpm s with
  | some t, some v, some c, some k, some r =>
    some ⟨fieldValue g.temp t, fieldValue g.volt v, fieldValue g.curr c, fieldValue g.cons k, fieldValue g.rpm r⟩
  | _, _, _, _, _ => none

end Sys2Proof.Machine
end

