-- ==== Sys2Proof/Machine/Resync.lean ====
section
/-! DEFINITION. The Hobbywing Resynchronizer (43_hobbywing_resync.md): `HR_BYTE` (R141) and the field views of the packet
accumulator (30_encoding.md R72). -/

namespace Sys2Proof.Machine

/-- `HR_BYTE b` (R141), the cases in the spec's order: skip (R142), sync (R143), collision (R144), store (R145) or store
and packet ready (R146), idle discard (R147). -/
def execHrByte (b : Byte) (s : State) : Result :=
  if 0 < s.hrSkip.toNat then
    let k := s.hrSkip - 1#4
    respond .hrSkipped (zext8 k) (s.setHrSkip k)
  else if s.hrCnt = 0#5 ∧ b = Config.hwSentinel then
    respond .hrSync 0x01#8 (s.setHrCnt 1#5)
  else if s.hrCnt = 1#5 ∧ b = Config.hwSentinel then
    let k := BitVec.ofNat 4 Config.hwSkipCount
    respond .hrCollision (zext8 k) ((s.setHrCnt 0#5).setHrSkip k)
  else if 1 ≤ s.hrCnt.toNat then
    let t := storeHpData (s.hrCnt.toNat - 1) b s
    if s.hrCnt.toNat = Config.hwPktLen then
      respond .hrPktReady 0x00#8 (t.setHrCnt 0#5)
    else
      let n := s.hrCnt + 1#5
      respond .hrStored (zext8 n) (t.setHrCnt n)
  else
    respond .hrIdle 0x00#8 s

/-! ### Field views of the packet (R72); cells 0 to 2 are not named by the source -/

/-- The unnamed first three cells. -/
def hpUnnamed (s : State) : Option (BitVec 24) := cells24 s.hpData[0] s.hpData[1] s.hpData[2]
/-- Throttle. -/
def hpThrottle (s : State) : Option (BitVec 16) := cells16 s.hpData[3] s.hpData[4]
/-- PWM. -/
def hpPwm (s : State) : Option (BitVec 16) := cells16 s.hpData[5] s.hpData[6]
/-- RPM, three bytes. -/
def hpRpm (s : State) : Option (BitVec 24) := cells24 s.hpData[7] s.hpData[8] s.hpData[9]
/-- Voltage. -/
def hpVoltage (s : State) : Option (BitVec 16) := cells16 s.hpData[10] s.hpData[11]
/-- Current. -/
def hpCurrent (s : State) : Option (BitVec 16) := cells16 s.hpData[12] s.hpData[13]
/-- FET temperature. -/
def hpFetTemp (s : State) : Option (BitVec 16) := cells16 s.hpData[14] s.hpData[15]
/-- Secondary temperature. -/
def hpSecondTemp (s : State) : Option (BitVec 16) := cells16 s.hpData[16] s.hpData[17]

end Sys2Proof.Machine
end

