-- ==== Sys2Proof/Machine/System.lean ====
section
/-! DEFINITION. The system commands (44_system_commands.md): `NOP` (R171) and `RD` (R172, R51, R174). -/

namespace Sys2Proof.Machine

/-- `NOP` (R171). -/
def execNop (s : State) : Result := respond .ok 0x00#8 s

/-- `RD a` (R172): a mapped address answers its byte, a never-written cell a free byte under status `OK` (R174), an
unmapped address `ERR_BAD_ARG` (R51). No register changes (20_memory.md R45). -/
def execRd (a : Byte) (s : State) : Result :=
  match memRead a s with
  | some r => respond .ok r.1 (s.setDraws r.2)
  | none => respond .errBadArg 0x00#8 s

end Sys2Proof.Machine
end

