-- ==== Sys2Proof/Machine/Dispatch.lean ====
section
/-! DEFINITION. One arm per command, each one call of its meaning. -/

namespace Sys2Proof.Machine

def exec (i : Instr) (s : State) : Host.Outcome State Fault Refusal :=
  match i with
  | .nop => Sys2Proof.Machine.execNop s
  | .crcInit => Sys2Proof.Machine.execCrcInit s
  | .crcUpd b => Sys2Proof.Machine.execCrcUpd b s
  | .fbArm n => Sys2Proof.Machine.execFbArm n s
  | .fbPush b => Sys2Proof.Machine.execFbPush b s
  | .kpParse => Sys2Proof.Machine.execKpParse s
  | .hrByte b => Sys2Proof.Machine.execHrByte b s
  | .rd a => Sys2Proof.Machine.execRd a s

end Sys2Proof.Machine
end

