-- ==== Sys2Proof/Machine/Step.lean ====
section
/-! DEFINITION. One step: one rising edge of `clk` at the port (30_encoding.md R73, 00_scope.md R5, 70_reset_and_hazards.md
R200), and the placing of a command word where the next step takes it. -/

namespace Sys2Proof.Machine

/-- One clock edge. `rst = 1` resets and ignores the command (R200); otherwise a presented word is the command it decodes
to, or a reserved word (R67); otherwise nothing is accepted (R5). -/
def step (s : State) : Host.Outcome State Fault Refusal :=
  let c := nextCycle s
  let t := takeCycle s
  if c.rst then .next (resetEdge t)
  else if c.cmdValid then
    match decode c.cmd with
    | .ok i => exec i t
    | .error _ => rejectWord t
  else .next (idleEdge t)

/-- `s` with the host presenting the table word `w` in the coming cycle, ahead of whatever was to be presented. HFT
fetches nothing (10_state.md R21): presenting a word on the command port is how a command comes to run (log entry 1). -/
def State.withFetchWord (s : State) (nbits w : Nat) : State :=
  s.setPort (tableCycle nbits w :: s.port)

end Sys2Proof.Machine
end

