-- ==== Sys2Proof/Machine/Pseudo.lean ====
section
/-! DEFINITION. The textual form of commands and responses and the pseudo-commands (30_encoding.md R69). -/

namespace Sys2Proof.Machine

/-- One hexadecimal digit, in capitals as the spec writes them (R69). -/
def hexDigit (n : BitVec 4) : String :=
  match n.toNat with
  | 10 => "A"
  | 11 => "B"
  | 12 => "C"
  | 13 => "D"
  | 14 => "E"
  | 15 => "F"
  | k => toString k

/-- A byte as `0xHH`. -/
def hexByte (b : Byte) : String :=
  "0x" ++ hexDigit (b.extractLsb' 4 4) ++ hexDigit (b.extractLsb' 0 4)

/-- A 12-bit word as three digits without a prefix (00_scope.md R7). -/
def hexWord (w : BitVec 12) : String :=
  hexDigit (w.extractLsb' 8 4) ++ hexDigit (w.extractLsb' 4 4) ++ hexDigit (w.extractLsb' 0 4)

/-- The mnemonic of a command (R61). -/
def mnemonic : Instr → String
  | .nop => "NOP"
  | .crcInit => "CRC_INIT"
  | .crcUpd _ => "CRC_UPD"
  | .fbArm _ => "FB_ARM"
  | .fbPush _ => "FB_PUSH"
  | .kpParse => "KP_PARSE"
  | .hrByte _ => "HR_BYTE"
  | .rd _ => "RD"

/-- A command as text: the mnemonic and the operand, if any (R69). -/
def commandText (i : Instr) : String :=
  match i with
  | .nop => mnemonic i
  | .crcInit => mnemonic i
  | .crcUpd b => mnemonic i ++ " " ++ hexByte b
  | .fbArm n => mnemonic i ++ " " ++ hexByte n
  | .fbPush b => mnemonic i ++ " " ++ hexByte b
  | .kpParse => mnemonic i
  | .hrByte b => mnemonic i ++ " " ++ hexByte b
  | .rd a => mnemonic i ++ " " ++ hexByte a

/-- The status names of R64. -/
def statusName : Status → String
  | .ok => "OK"
  | .errIllegalOp => "ERR_ILLEGAL_OP"
  | .errBadArg => "ERR_BAD_ARG"
  | .fbDropped => "FB_DROPPED"
  | .kpCrcFail => "KP_CRC_FAIL"
  | .kpNotReady => "KP_NOT_READY"
  | .hrSkipped => "HR_SKIPPED"
  | .hrIdle => "HR_IDLE"
  | .hrSync => "HR_SYNC"
  | .hrCollision => "HR_COLLISION"
  | .hrStored => "HR_STORED"
  | .hrPktReady => "HR_PKT_READY"

/-- A response as `status:data` (R69). -/
def responseText (r : Response) : String := statusName r.status ++ ":" ++ hexByte r.data

/-! ### Source operations and pseudo-commands and their expansions (R69) -/

/-- `RD name`: a register name stands for its address. -/
def rdReg (r : Reg) : Instr := .rd (regAddr r)

/-- `crc8(b0 .. bn-1)`. -/
def pseudoCrc8 (bs : List Byte) : List Instr := .crcInit :: bs.map .crcUpd

/-- `arm(capacity)`. -/
def pseudoArm (n : Byte) : List Instr := [.fbArm n]

/-- `KISS_ARM`: `FB_ARM 10`. -/
def pseudoKissArm : List Instr := [.fbArm 0x0A#8]

/-- `push(byte)`. -/
def pseudoPush (b : Byte) : List Instr := [.fbPush b]

/-- `is_complete()`: `RD FB_STAT`. -/
def pseudoIsComplete : List Instr := [rdReg .fbStat]

/-- `bytes_filled()`: `RD FB_POS`. -/
def pseudoBytesFilled : List Instr := [rdReg .fbPos]

/-- `RD16` of the field whose high byte is at `a`. -/
def pseudoRd16 (a : Byte) : List Instr := [.rd a, .rd (a + 1#8)]

/-- `HR_PKT`: the 18 packet bytes in order. -/
def pseudoHrPkt : List Instr := (List.finRange 18).map fun i => rdReg (.hpData i)

end Sys2Proof.Machine
end

