-- ==== Sys2Proof/Safety.lean ====
section
/-! DEFINITION. What claims are stated in terms of: the invariants of 10_state.md R31, "no register changed", runs of a
command sequence and the responses they give, and the host's discipline that HFT does not check (60_exceptions.md R187,
70_reset_and_hazards.md R208). -/

namespace Sys2Proof.Machine

/-! ### Invariants (R31) -/

/-- R31 (a): `FB_POS <= FB_CAP <= 10`. -/
abbrev State.FbInRange (s : State) : Prop :=
  s.fbPos.toNat ≤ s.fbCap.toNat ∧ s.fbCap.toNat ≤ 10

/-- R31 (b) to (d): `HR_CNT <= 18`, `HR_SKIP <= 11`, and `HR_SKIP > 0` implies `HR_CNT == 0`. -/
abbrev State.HrInRange (s : State) : Prop :=
  s.hrCnt.toNat ≤ 18 ∧ s.hrSkip.toNat ≤ 11 ∧ (0 < s.hrSkip.toNat → s.hrCnt = 0#5)

/-- R31 (e), as far as one state shows it: the cells below `FB_POS` hold a defined byte. -/
abbrev State.FbFilled (s : State) : Prop :=
  ∀ i : Fin 10, i.val < s.fbPos.toNat → s.fbData[i.val].isSome = true

/-- R31 (f), as far as one state shows it: the cells `i <= HR_CNT - 2` hold a defined byte. -/
abbrev State.HpFilled (s : State) : Prop :=
  ∀ i : Fin 18, i.val + 2 ≤ s.hrCnt.toNat → s.hpData[i.val].isSome = true

/-- R27: the nine cells of `K_FRAME` are written together or not at all. -/
abbrev State.KTogether (s : State) : Prop :=
  (∀ i : Fin 9, s.kFrame[i.val] = none) ∨ (∀ i : Fin 9, s.kFrame[i.val].isSome = true)

/-- The invariant: R31 (a) to (f) and R27. -/
abbrev State.Inv (s : State) : Prop :=
  s.FbInRange ∧ s.HrInRange ∧ s.FbFilled ∧ s.HpFilled ∧ s.KTogether

/-! ### "No state changed" -/

/-- All the registers of 10_state.md section 9 hold the same in both states; the port and the model's counter of free
bytes are not registers. -/
abbrev State.SameRegisters (s t : State) : Prop :=
  s.crcAcc = t.crcAcc ∧ s.fbPos = t.fbPos ∧ s.fbCap = t.fbCap ∧ s.fbData = t.fbData ∧ s.kFrame = t.kFrame ∧
    s.hrCnt = t.hrCnt ∧ s.hrSkip = t.hrSkip ∧ s.hpData = t.hpData

/-! ### Command sequences -/

/-- The commands of a list, one after another (R5, R47). -/
def execAll : List Instr → State → Result
  | [], s => .next s
  | i :: is, s =>
    match exec i s with
    | .next t => execAll is t
    | .fault r => .fault r
    | .refused r => .refused r

/-- The responses to the commands of a list, in order (R6). -/
def responses : List Instr → State → List Response
  | [], _ => []
  | i :: is, s =>
    match exec i s with
    | .next t => t.rsp.toList ++ responses is t
    | .fault _ => []
    | .refused _ => []

/-- The port cycles that present the commands of a list, one a clock (R73). -/
def presented (is : List Instr) : List PortIn := is.map fun i => PortIn.command (encode i)

/-- The bytes a sequence runs through the generator, in order. -/
def crcBytes (is : List Instr) : List Byte :=
  is.filterMap fun i =>
    match i with
    | .crcUpd b => some b
    | .nop => none
    | .crcInit => none
    | .fbArm _ => none
    | .fbPush _ => none
    | .kpParse => none
    | .hrByte _ => none
    | .rd _ => none

/-- The bytes a sequence offers to the frame buffer, in order. -/
def pushBytes (is : List Instr) : List Byte :=
  is.filterMap fun i =>
    match i with
    | .fbPush b => some b
    | .nop => none
    | .crcInit => none
    | .crcUpd _ => none
    | .fbArm _ => none
    | .kpParse => none
    | .hrByte _ => none
    | .rd _ => none

/-- The command is an `FB_ARM`. -/
def isArm (i : Instr) : Bool := i.op == 0x3#4

/-- The command is an `HR_BYTE`. -/
def isHrByte (i : Instr) : Bool := i.op == 0x6#4

/-! ### Groups of commands by the state they touch -/

/-- Which state a command may touch: the generator's, the frame buffer's and parser's, the resynchronizer's, or none. -/
inductive SubBlock where
  | generator
  | bufferAndParser
  | resynchronizer
  | system
deriving DecidableEq, Repr

/-- The group of each command: R1's Checksum Unit, its Frame Buffer and KISS parser as one, its resynchronizer, or no
sub-block (`NOP`, `RD`). -/
def subBlock : Instr → SubBlock
  | .nop => .system
  | .crcInit => .generator
  | .crcUpd _ => .generator
  | .fbArm _ => .bufferAndParser
  | .fbPush _ => .bufferAndParser
  | .kpParse => .bufferAndParser
  | .hrByte _ => .resynchronizer
  | .rd _ => .system

/-! ### The host's discipline (R187, R208), which HFT does not check -/

/-- The two contexts of the environment (R187). -/
inductive Context where
  | interrupt
  | periodic
deriving DecidableEq, Repr

/-- The table of R187: which context issues which command, per the source. -/
def issuedBy (c : Context) : Instr → Bool
  | .nop => true
  | .crcInit => true
  | .crcUpd _ => true
  | .fbArm _ => c == .periodic
  | .fbPush _ => c == .interrupt
  | .kpParse => c == .periodic
  | .hrByte _ => c == .periodic
  | .rd _ => c == .periodic

/-- An `RD` of a buffer cell at or above `FB_POS` while the buffer is not complete: what R208 tells the host not to rely
on. -/
def readsEarly (i : Instr) (s : State) : Bool :=
  match i with
  | .rd a =>
    match regAt a with
    | some (.fbData k) => !fbComplete s && s.fbPos.toNat ≤ k.val
    | some .crcAcc => false
    | some .fbPos => false
    | some .fbCap => false
    | some .fbStat => false
    | some .hrCnt => false
    | some .hrSkip => false
    | some (.kFrame _) => false
    | some (.hpData _) => false
    | none => false
  | .nop => false
  | .crcInit => false
  | .crcUpd _ => false
  | .fbArm _ => false
  | .fbPush _ => false
  | .kpParse => false
  | .hrByte _ => false

end Sys2Proof.Machine
end

