-- ==== Sys2Proof/WellFormed.lean ====
section
/-! DEFINITION. What the spec calls assigned (a command word, R61) and legal (an operand, R62). Both are checks on
syntax only: the machine answers EVERY word, the reserved and the refused ones too (R6, R67, R51, R101). -/

namespace Sys2Proof

/-- One row of the encoding table of R61. -/
structure TableRow where
  mnemonic : String
  pattern : CmdWord
  mask : CmdWord
deriving DecidableEq, Repr

/-- The columns "match" and "mask" of R61, row by row. -/
def encodingTable : List TableRow :=
  [ ⟨"NOP", 0x000#12, 0xFFF#12⟩,
    ⟨"CRC_INIT", 0x100#12, 0xFFF#12⟩,
    ⟨"CRC_UPD", 0x200#12, 0xF00#12⟩,
    ⟨"FB_ARM", 0x300#12, 0xF00#12⟩,
    ⟨"FB_PUSH", 0x400#12, 0xF00#12⟩,
    ⟨"KP_PARSE", 0x500#12, 0xFFF#12⟩,
    ⟨"HR_BYTE", 0x600#12, 0xF00#12⟩,
    ⟨"RD", 0x700#12, 0xF00#12⟩ ]

/-- A row matches a word when the word's bits under the mask are the row's (R61). -/
def TableRow.matchesWord (r : TableRow) (w : CmdWord) : Bool :=
  w &&& r.mask == r.pattern

/-- A word is assigned when some row matches it; otherwise it is reserved (R61, R67). -/
def assignedWord (w : CmdWord) : Bool :=
  encodingTable.any (·.matchesWord w)

/-- The mapped addresses of the register space, range by range (20_memory.md R41). -/
def mappedAddress (a : Byte) : Bool :=
  let n := a.toNat
  n ≤ 0x05 || (0x10 ≤ n && n ≤ 0x19) || (0x20 ≤ n && n ≤ 0x28) || (0x40 ≤ n && n ≤ 0x51)

/-- The operand is legal in the sense of R62: a capacity of at most 10, a mapped address; every data byte. An
instruction that is not well-formed still runs and is answered `ERR_BAD_ARG` (log entry 15). -/
def Instr.wellFormed : Instr → Bool
  | .nop => true
  | .crcInit => true
  | .crcUpd _ => true
  | .fbArm n => n.toNat ≤ Config.fbDepth
  | .fbPush _ => true
  | .kpParse => true
  | .hrByte _ => true
  | .rd a => mappedAddress a

end Sys2Proof
end

