-- ==== Sys2Proof/Certificates/Slice0/Obligations.lean ====
section
/-! DEFINITION. The statements for the provers, each from a numbered rule of spec/ (its docstring names the rule). -/

open Sys2Proof Sys2Proof.Machine

/-! ### The command and response words -/

/-- R61, R62: no bit of an operand is lost between the encoder and the decoder, for every command and operand. -/
def Obligations.DecodeOfEncodeIsIdentity : Prop :=
  ∀ i : Instr, decode (encode i) = .ok i

/-- R61: every accepted word is the encoding of the command it decodes to, so no two words mean one command. -/
def Obligations.EncodeOfDecodeIsIdentity : Prop :=
  ∀ (w : CmdWord) (i : Instr), decode w = .ok i → encode i = w

/-- R61: the decoder accepts exactly the words some row of the table matches, reads the row's mnemonic and
the operand in bits 7:0, and no two rows match one word. -/
def Obligations.DecoderFollowsTheEncodingTable : Prop :=
  (∀ w : CmdWord, (∃ i, decode w = .ok i) ↔ assignedWord w = true) ∧
  (∀ (w : CmdWord) (i : Instr), decode w = .ok i →
    i.arg = w.extractLsb' 0 8 ∧ ∃ r ∈ encodingTable, r.matchesWord w = true ∧ r.mnemonic = mnemonic i) ∧
  (∀ (w : CmdWord) (r q : TableRow), r ∈ encodingTable → q ∈ encodingTable →
    r.matchesWord w = true → q.matchesWord w = true → r = q)

/-- Words written out from R61 and 95_test_vectors.md decode to the commands they stand for. -/
def Obligations.SampleWordsDecode : Prop :=
  decode 0b000000000000#12 = .ok .nop ∧
  decode 0b000100000000#12 = .ok .crcInit ∧
  decode 0b001000110001#12 = .ok (.crcUpd 0x31#8) ∧
  decode 0b001100001010#12 = .ok (.fbArm 0x0A#8) ∧
  decode 0b010000011001#12 = .ok (.fbPush 0x19#8) ∧
  decode 0b010100000000#12 = .ok .kpParse ∧
  decode 0b011010011011#12 = .ok (.hrByte 0x9B#8) ∧
  decode 0b011100000011#12 = .ok (.rd 0x03#8) ∧
  decode 0b010100000001#12 = .error .nonzeroArg ∧
  decode 0b111100000000#12 = .error .unassignedOp

/-- R67: the reserved words are those with `op` 0x8 to 0xF and those with `op` 0x0, 0x1 or 0x5 and a non-zero `arg`,
2048 and 765 words; a step on one changes no state and answers `ERR_ILLEGAL_OP` with data 0x00. -/
def Obligations.ReservedWordsAnswerIllegalOp : Prop :=
  (∀ (op : BitVec 4) (arg : Byte),
    (∃ e, decode (op ++ arg) = .error e) ↔
      (0x8 ≤ op.toNat ∨ ((op = 0x0#4 ∨ op = 0x1#4 ∨ op = 0x5#4) ∧ arg ≠ 0x00#8))) ∧
  ((List.range 4096).countP fun n => decode (BitVec.ofNat 12 n) == .error .unassignedOp) = 2048 ∧
  ((List.range 4096).countP fun n => decode (BitVec.ofNat 12 n) == .error .nonzeroArg) = 765 ∧
  (∀ (s : State) (w : CmdWord) (e : Reserved) (rest : List PortIn),
    decode w = .error e →
      step (s.setPort (PortIn.command w :: rest)) =
        .next { s with port := rest, rsp := some ⟨.errIllegalOp, 0x00#8⟩ })

/-- R63, R64: the response word is `status` over `data`, the codes are those of the table, distinct, and no response
carries a code 0xC to 0xF. -/
def Obligations.ResponseCodesAreDistinctAndBelowC : Prop :=
  (∀ (st : Status) (d : Byte), (responseWord ⟨st, d⟩).extractLsb' 8 4 = statusCode st ∧
    (responseWord ⟨st, d⟩).extractLsb' 0 8 = d ∧ (statusCode st).toNat < 0xC) ∧
  (∀ st su : Status, statusCode st = statusCode su → st = su) ∧
  [Status.ok, .errIllegalOp, .errBadArg, .fbDropped, .kpCrcFail, .kpNotReady, .hrSkipped, .hrIdle, .hrSync, .hrCollision,
    .hrStored, .hrPktReady].map statusCode = (List.range 12).map (BitVec.ofNat 4)

/-- R64, "produced by": which command can answer with which status. -/
def Obligations.StatusesOfEachCommand : Prop :=
  ∀ (i : Instr) (s t : State), exec i s = .next t → ∃ st d, t.rsp = some ⟨st, d⟩ ∧
    match i with
    | .nop => st = .ok
    | .crcInit => st = .ok
    | .crcUpd _ => st = .ok
    | .fbArm _ => st = .ok ∨ st = .errBadArg
    | .fbPush _ => st = .ok ∨ st = .fbDropped
    | .kpParse => st = .ok ∨ st = .kpCrcFail ∨ st = .kpNotReady
    | .hrByte _ => st = .hrSkipped ∨ st = .hrIdle ∨ st = .hrSync ∨ st = .hrCollision ∨ st = .hrStored ∨
        st = .hrPktReady
    | .rd _ => st = .ok ∨ st = .errBadArg

/-! ### The step and the port -/

/-- A presented word that decodes to a command is that command's meaning, run with the cycle taken off the port; `rst`
is 0 and `cmd_valid` is 1 in that cycle (R5, R73). -/
def Obligations.StepRunsTheDecodedCommand : Prop :=
  ∀ (s : State) (c : PortIn) (rest : List PortIn) (i : Instr),
    c.rst = false → c.cmdValid = true → decode c.cmd = .ok i →
      step (s.setPort (c :: rest)) = exec i (s.setPort rest)

/-- The word placed by `withFetchWord` is the command the very next step runs (log entry 1). -/
def Obligations.PlacedWordIsRunNext : Prop :=
  ∀ (s : State) (nbits w : Nat) (i : Instr), decodeTableWord nbits w = some i →
    step (s.withFetchWord nbits w) = exec i s

/-- R6: no step fails to complete, and every presented command word, assigned or not, produces exactly one response. -/
def Obligations.EveryCommandWordIsAnswered : Prop :=
  (∀ s : State, ∃ t, step s = .next t) ∧
  (∀ (s : State) (w : CmdWord) (rest : List PortIn), ∃ t r,
    step (s.setPort (PortIn.command w :: rest)) = .next t ∧ t.rsp = some r ∧ t.port = rest)

/-- R5: in a cycle with no command nothing changes; the response output shows no response (R73). -/
def Obligations.NoCommandLeavesTheStateUnchanged : Prop :=
  ∀ (s : State) (w : CmdWord) (rest : List PortIn),
    step (s.setPort (⟨false, false, w⟩ :: rest)) = .next { s with port := rest, rsp := none } ∧
    step (s.setPort []) = .next { s with port := [], rsp := none }

/-- R200: a cycle with `rst = 1` gives the control registers their reset values, makes every cell absent, and ignores
the command of that cycle: no response. The cycles still to come and the model's draw counter stay (log entries 5, 12). -/
def Obligations.ResetCycleResetsEverything : Prop :=
  ∀ (s : State) (c : PortIn) (rest : List PortIn), c.rst = true →
    step (s.setPort (c :: rest)) = .next
      { crcAcc := 0x00#8, fbPos := 0#4, fbCap := 0#4, fbData := Vector.replicate 10 none,
        kFrame := Vector.replicate 9 none, hrCnt := 0#5, hrSkip := 0#4, hpData := Vector.replicate 18 none,
        rsp := none, port := rest, draws := s.draws }

/-- R201: what the host sees straight after reset. -/
def Obligations.AfterResetAsTheHostSeesIt : Prop :=
  exec (.rd 0x00#8) State.reset = .next { State.reset with rsp := some ⟨.ok, 0x00#8⟩ } ∧
  exec (.rd 0x01#8) State.reset = .next { State.reset with rsp := some ⟨.ok, 0x00#8⟩ } ∧
  exec (.rd 0x02#8) State.reset = .next { State.reset with rsp := some ⟨.ok, 0x00#8⟩ } ∧
  exec (.rd 0x03#8) State.reset = .next { State.reset with rsp := some ⟨.ok, 0x01#8⟩ } ∧
  exec (.rd 0x04#8) State.reset = .next { State.reset with rsp := some ⟨.ok, 0x00#8⟩ } ∧
  exec (.rd 0x05#8) State.reset = .next { State.reset with rsp := some ⟨.ok, 0x00#8⟩ } ∧
  (∀ b : Byte, exec (.fbPush b) State.reset = .next { State.reset with rsp := some ⟨.fbDropped, 0x00#8⟩ }) ∧
  exec .kpParse State.reset = .next { State.reset with rsp := some ⟨.kpNotReady, 0x00#8⟩ } ∧
  State.reset.hrCnt = 0#5 ∧ State.reset.hrSkip = 0#4 ∧ State.reset.crcAcc = Config.crcSeed ∧
  step State.reset = .next State.reset

/-- R5, R47, R73: presenting commands one a clock runs them in order, each on the state the one before left. -/
def Obligations.PresentedCommandsRunInOrder : Prop :=
  ∀ (is : List Instr) (s : State) (rest : List PortIn),
    Sys2Proof.core.run is.length (s.setPort (presented is ++ rest)) = execAll is (s.setPort rest)

/-! ### Invariants and whole-machine rules -/

/-- R31 (a) to (f) and R27 hold at reset. -/
def Obligations.ResetMeetsTheInvariant : Prop := State.reset.Inv

/-- R31: every step keeps the invariant (a) to (f) and R27, whatever is presented. -/
def Obligations.StepKeepsTheInvariant : Prop :=
  ∀ s t : State, s.Inv → step s = .next t → t.Inv

/-- R185: the five outcomes change no state at all; `HR_COLLISION` changes `HR_CNT` and `HR_SKIP` and nothing else. -/
def Obligations.ErrorOutcomesChangeNoState : Prop :=
  ∀ (s t : State) (w : CmdWord) (rest : List PortIn) (r : Response),
    step (s.setPort (PortIn.command w :: rest)) = .next t → t.rsp = some r →
      ((r.status = .errIllegalOp ∨ r.status = .errBadArg ∨ r.status = .fbDropped ∨ r.status = .kpCrcFail ∨
          r.status = .kpNotReady) → s.SameRegisters t) ∧
      (r.status = .hrCollision → t.hrCnt = 0#5 ∧ t.hrSkip = 11#4 ∧
        t.crcAcc = s.crcAcc ∧ t.fbPos = s.fbPos ∧ t.fbCap = s.fbCap ∧ t.fbData = s.fbData ∧
        t.kFrame = s.kFrame ∧ t.hpData = s.hpData)

/-- R42 and the "written by" column of 10_state.md section 9: which command can change which register. -/
def Obligations.RegistersAreWrittenByTheirOwners : Prop :=
  ∀ (i : Instr) (s t : State), exec i s = .next t →
    (t.crcAcc ≠ s.crcAcc → i = .crcInit ∨ ∃ b, i = .crcUpd b) ∧
    (t.fbPos ≠ s.fbPos → (∃ n, i = .fbArm n) ∨ ∃ b, i = .fbPush b) ∧
    (t.fbCap ≠ s.fbCap → ∃ n, i = .fbArm n) ∧
    (t.fbData ≠ s.fbData → ∃ b, i = .fbPush b) ∧
    (t.kFrame ≠ s.kFrame → i = .kpParse ∧ ∃ d, t.rsp = some ⟨.ok, d⟩) ∧
    (t.hrCnt ≠ s.hrCnt ∨ t.hrSkip ≠ s.hrSkip ∨ t.hpData ≠ s.hpData → ∃ b, i = .hrByte b)

/-- R33, R211 and program P5: the generator (CU), the frame buffer and the KISS parser counted as one (FB with KP), the
resynchronizer (HR) and the system commands `NOP` and `RD` do not disturb each other; two commands of different ones of
these four groups, issued in either order, leave the same registers. R1 counts FB and KP as two sub-blocks; `KP_PARSE`
reads the buffer, so it does not commute with `FB_ARM` and `FB_PUSH`, and of those pairs this statement says nothing. -/
def Obligations.SubBlocksDoNotDisturbEachOther : Prop :=
  ∀ (i j : Instr) (s t u : State), s.Inv → subBlock i ≠ subBlock j →
    execAll [i, j] s = .next t → execAll [j, i] s = .next u → t.SameRegisters u

/-! ### Checksum Unit -/

/-- R81: one round tests the high bit before the shift and truncates to 8 bits; one byte is 8 rounds on `c ^ b`. -/
def Obligations.CrcByteIsEightRounds : Prop :=
  (∀ v : Byte, (crc8Round v).toNat =
    if 128 ≤ v.toNat then ((2 * v.toNat) ^^^ 0x07) % 256 else (2 * v.toNat) % 256) ∧
  (∀ c b : Byte, crc8Byte c b =
    crc8Round (crc8Round (crc8Round (crc8Round (crc8Round (crc8Round (crc8Round (crc8Round (c ^^^ b)))))))))

/-- R82: the seed for the empty sequence, and one byte more at the end. -/
def Obligations.CrcOfASequence : Prop :=
  crc8 [] = 0x00#8 ∧ ∀ (bs : List Byte) (b : Byte), crc8 (bs ++ [b]) = crc8Byte (crc8 bs) b

/-- R86 (a), (b): only `c ^ b` matters, and the byte step is linear over XOR. -/
def Obligations.CrcStepIsLinear : Prop :=
  (∀ c b : Byte, crc8Byte c b = crc8Byte 0x00#8 (c ^^^ b) ∧ crc8Byte c b = crc8Byte (c ^^^ b) 0x00#8) ∧
  (∀ x y : Byte, crc8Round (x ^^^ y) = crc8Round x ^^^ crc8Round y) ∧
  (∀ x y : Byte, crc8Byte 0x00#8 (x ^^^ y) = crc8Byte 0x00#8 x ^^^ crc8Byte 0x00#8 y) ∧
  crc8Byte 0x00#8 0x00#8 = 0x00#8

/-- R86 (c), (d): leading zero bytes are invisible, a message followed by its checksum has residue zero, and so a KISS
frame is valid exactly when `crc8` of all ten bytes is zero. -/
def Obligations.CrcLeadingZerosAndResidue : Prop :=
  (∀ m : List Byte, crc8 (0x00#8 :: m) = crc8 m) ∧
  (∀ m : List Byte, crc8 (m ++ [crc8 m]) = 0x00#8) ∧
  (∀ f : Vector Byte 10, frameValid f.toList = true ↔ crc8 f.toList = 0x00#8)

/-- R86 (e), (f): the byte step is a bijection of the byte, and a change of one bit anywhere in a message changes its
checksum. -/
def Obligations.CrcDetectsEverySingleBitError : Prop :=
  (∀ c : Byte, Function.Bijective (crc8Byte c)) ∧
  (∀ (m : List Byte) (i k : Nat) (h : i < m.length), k < 8 →
    crc8 (m.set i (m[i] ^^^ (0x01#8 <<< k))) ≠ crc8 m)

open Polynomial in
/-- The paragraph after R86 (the polynomial form): over GF(2), `crc8 m` is the remainder of the message polynomial times
`x^8` divided by `x^8 + x^2 + x + 1`, the most significant bit of the first byte being the highest coefficient. -/
def Obligations.CrcIsThePolynomialRemainder : Prop :=
  ∀ m : List Byte,
    let poly : Byte → (ZMod 2)[X] := fun v => ∑ i : Fin 8, if v.getLsbD i then X ^ i.val else 0
    ((X ^ 8 + X ^ 2 + X + 1 : (ZMod 2)[X]) ∣
      poly (crc8 m) - X ^ 8 * m.foldl (fun acc b => X ^ 8 * acc + poly b) 0)

/-- R83: `CRC_INIT` loads the seed, answers OK:00 and touches nothing else; its word is 100, and a non-zero `arg` is a
reserved encoding. -/
def Obligations.CrcInitLoadsTheSeed : Prop :=
  (∀ s : State, exec .crcInit s = .next { s with crcAcc := 0x00#8, rsp := some ⟨.ok, 0x00#8⟩ }) ∧
  encode .crcInit = 0x100#12 ∧
  (∀ a : Byte, a ≠ 0x00#8 → decode (0x1#4 ++ a) = .error .nonzeroArg)

/-- R84: `CRC_UPD b` runs one byte through the generator and answers the new `CRC_ACC`; its words are 200 to 2FF. -/
def Obligations.CrcUpdRunsOneByte : Prop :=
  ∀ (b : Byte) (s : State),
    exec (.crcUpd b) s = .next
      { s with crcAcc := crc8Byte s.crcAcc b, rsp := some ⟨.ok, crc8Byte s.crcAcc b⟩ } ∧
    decode (0x2#4 ++ b) = .ok (.crcUpd b)

/-- R85: after a `CRC_INIT` and any commands without another `CRC_INIT`, `CRC_ACC` is `crc8` of the `CRC_UPD` bytes so
far; the last response of such a sequence that ends in a `CRC_UPD` carries it. After reset the `CRC_INIT` may be left out,
for the register and for the response. -/
def Obligations.GeneratorAgreesWithTheFunction : Prop :=
  (∀ (is : List Instr) (s : State), Instr.crcInit ∉ is →
    ∃ t, execAll (.crcInit :: is) s = .next t ∧ t.crcAcc = crc8 (crcBytes is)) ∧
  (∀ (is : List Instr) (b : Byte) (s : State), Instr.crcInit ∉ is →
    ∃ t, execAll (.crcInit :: (is ++ [.crcUpd b])) s = .next t ∧
      t.rsp = some ⟨.ok, crc8 (crcBytes is ++ [b])⟩) ∧
  (∀ is : List Instr, Instr.crcInit ∉ is →
    ∃ t, execAll is State.reset = .next t ∧ t.crcAcc = crc8 (crcBytes is)) ∧
  (∀ (is : List Instr) (b : Byte), Instr.crcInit ∉ is →
    ∃ t, execAll (is ++ [.crcUpd b]) State.reset = .next t ∧ t.rsp = some ⟨.ok, crc8 (crcBytes is ++ [b])⟩)

/-! ### Frame Buffer -/

/-- R101: `FB_ARM n` with a capacity of at most 10 sets position and capacity and writes no cell; above 10 it changes
nothing; a capacity below 10 never lets `KP_PARSE` decode. -/
def Obligations.FbArmSetsPositionAndCapacity : Prop :=
  ∀ (n : Byte) (s : State),
    (n.toNat ≤ 10 → exec (.fbArm n) s = .next
      { s with fbPos := 0#4, fbCap := n.extractLsb' 0 4, rsp := some ⟨.ok, 0x00#8⟩ }) ∧
    (10 < n.toNat → exec (.fbArm n) s = .next { s with rsp := some ⟨.errBadArg, 0x00#8⟩ }) ∧
    (∀ t, n.toNat ≤ 10 → exec (.fbArm n) s = .next t → (fbComplete t = true ↔ n = 0x00#8)) ∧
    (n.toNat < 10 → ∀ t : State, t.fbCap = n.extractLsb' 0 4 →
      exec .kpParse t = .next { t with rsp := some ⟨.kpNotReady, t.fbPos.setWidth 8⟩ }) ∧
    decode (0x3#4 ++ n) = .ok (.fbArm n)

/-- R102: `FB_PUSH b` on a complete buffer drops the byte and changes nothing, otherwise it stores at `FB_POS` and
advances; `COMPLETE` then says whether the new position is the capacity. -/
def Obligations.FbPushStoresOrDrops : Prop :=
  ∀ (b : Byte) (s : State),
    (s.fbPos = s.fbCap → exec (.fbPush b) s = .next { s with rsp := some ⟨.fbDropped, s.fbPos.setWidth 8⟩ }) ∧
    (∀ h : s.fbPos.toNat < 10, s.fbPos ≠ s.fbCap → exec (.fbPush b) s = .next
      { s with
        fbData := s.fbData.set s.fbPos.toNat (some b) h
        fbPos := s.fbPos + 1#4
        rsp := some ⟨.ok, (s.fbPos + 1#4).setWidth 8⟩ }) ∧
    (∀ t, s.fbPos ≠ s.fbCap → exec (.fbPush b) s = .next t → (fbComplete t = true ↔ s.fbPos + 1#4 = s.fbCap)) ∧
    decode (0x4#4 ++ b) = .ok (.fbPush b)

/-- R47 (b), R105: after an arm for `n` and any commands without another `FB_ARM`, `FB_POS` counts the accepted pushes
(at most `n`) and the cells below it hold the pushed bytes in push order. -/
def Obligations.BufferHoldsPushedBytesInOrder : Prop :=
  ∀ (n : Byte) (is : List Instr) (s : State), n.toNat ≤ 10 → (∀ i ∈ is, isArm i = false) →
    ∃ t, execAll (.fbArm n :: is) s = .next t ∧
      t.fbPos.toNat = min n.toNat (pushBytes is).length ∧
      ∀ k : Fin 10, k.val < t.fbPos.toNat → t.fbData[k.val] = (pushBytes is)[k.val]?

/-- R47 (a) for the buffer: a byte just stored is what `RD` of its cell answers. -/
def Obligations.PushedByteReadsBack : Prop :=
  ∀ (b : Byte) (s : State), s.fbPos.toNat < 10 → s.fbPos ≠ s.fbCap →
    ∃ t, execAll [.fbPush b, .rd (BitVec.ofNat 8 (0x10 + s.fbPos.toNat))] s = .next t ∧ t.rsp = some ⟨.ok, b⟩

/-- R203: a late byte after a rearm is stored in cell 0 ahead of the new frame, whose last byte is then dropped; the
parse answers `OK` exactly when the tenth stored byte happens to be the checksum of the other nine. -/
def Obligations.LateByteShiftsTheFrame : Prop :=
  (∀ (late : Byte) (f : Vector Byte 10) (s : State), ∃ t u,
    execAll (.fbArm 0x0A#8 :: .fbPush late :: f.toList.map .fbPush) s = .next t ∧
    t.rsp = some ⟨.fbDropped, 0x0A#8⟩ ∧
    t.fbData.toList = (late :: f.toList.take 9).map some ∧
    exec .kpParse t = .next u ∧
    ((∃ d, u.rsp = some ⟨.ok, d⟩) ↔ crc8 (late :: f.toList.take 8) = f[8])) ∧
  (∀ nine : List Byte, nine.length = 9 → ∃ b : Byte, frameValid (nine ++ [b]) = true ∧
    ∀ c : Byte, frameValid (nine ++ [c]) = true → c = b)

/-! ### KISS parser -/

/-- R121, R122, R123: `KP_PARSE` on a buffer that is not ready changes nothing; on a ready one it latches bytes 0 to 8
when `crc8` of them is byte 9, and otherwise changes nothing; the data byte is the computed checksum. Its word is 500, and
a non-zero `arg` is reserved. In a reachable state (`Inv`) a ready buffer has its ten cells written, corner case (a), and
a parse does not consume the frame: repeated, it gives the same response and state, corner case (b). -/
def Obligations.KpParseValidatesAndLatches : Prop :=
  ∀ s : State,
    (¬ (s.fbCap = 10#4 ∧ s.fbPos = 10#4) →
      exec .kpParse s = .next { s with rsp := some ⟨.kpNotReady, s.fbPos.setWidth 8⟩ }) ∧
    (∀ f : Vector Byte 10, s.fbCap = 10#4 → s.fbPos = 10#4 → s.fbData = f.map some →
      (crc8 (f.toList.take 9) = f[9] → exec .kpParse s = .next
        { s with
          kFrame := Vector.ofFn fun i : Fin 9 => some f[i.val]
          rsp := some ⟨.ok, f[9]⟩ }) ∧
      (crc8 (f.toList.take 9) ≠ f[9] → exec .kpParse s = .next
        { s with rsp := some ⟨.kpCrcFail, crc8 (f.toList.take 9)⟩ })) ∧
    encode .kpParse = 0x500#12 ∧
    (∀ a : Byte, a ≠ 0x00#8 → decode (0x5#4 ++ a) = .error .nonzeroArg) ∧
    (s.Inv → s.fbCap = 10#4 → s.fbPos = 10#4 → ∃ f : Vector Byte 10, s.fbData = f.map some) ∧
    (s.Inv → ∀ t, exec .kpParse s = .next t → exec .kpParse t = .next t)

/-- R120, R124: arm for 10, push ten bytes, parse. A frame whose byte 9 is the checksum yields the five fields, bit for
bit big-endian; any other frame yields `KP_CRC_FAIL` and leaves the fields as they were. -/
def Obligations.FrameYieldsBigEndianFields : Prop :=
  ∀ (f : Vector Byte 10) (s : State), ∃ t,
    execAll (.fbArm 0x0A#8 :: (f.toList.map .fbPush ++ [.kpParse])) s = .next t ∧
    (f[9] = crc8 (f.toList.take 9) →
      t.rsp = some ⟨.ok, f[9]⟩ ∧ kTemp t = some f[0] ∧ kVolt t = some (f[1] ++ f[2]) ∧
      kCurr t = some (f[3] ++ f[4]) ∧ kCons t = some (f[5] ++ f[6]) ∧ kRpm t = some (f[7] ++ f[8])) ∧
    (f[9] ≠ crc8 (f.toList.take 9) →
      t.rsp = some ⟨.kpCrcFail, crc8 (f.toList.take 9)⟩ ∧ t.kFrame = s.kFrame)

/-- R126: `KP_PARSE` neither reads nor writes `CRC_ACC`. -/
def Obligations.KpParseIgnoresTheAccumulator : Prop :=
  ∀ (s t : State) (x : Byte), exec .kpParse s = .next t →
    t.crcAcc = s.crcAcc ∧ exec .kpParse { s with crcAcc := x } = .next { t with crcAcc := x }

/-- R127: the frame of ten 0x00 bytes is valid and yields nine zero cells. -/
def Obligations.AllZeroFrameIsValid : Prop :=
  ∀ s : State, ∃ t,
    execAll (.fbArm 0x0A#8 :: (List.replicate 10 (.fbPush 0x00#8) ++ [.kpParse])) s = .next t ∧
    t.rsp = some ⟨.ok, 0x00#8⟩ ∧ t.kFrame = Vector.replicate 9 (some 0x00#8)

/-- R128: the open parameter chooses between the two readings of the same bits, which differ by a multiple of `2^w`. -/
def Obligations.SignednessReadsTheSameBits : Prop :=
  ∀ (w : Nat) (v : BitVec w),
    BitVec.ofInt w (fieldValue .zext v) = v ∧ BitVec.ofInt w (fieldValue .sext v) = v ∧
    0 ≤ fieldValue .zext v ∧ fieldValue .zext v < 2 ^ w ∧
    (v.msb = false → fieldValue .sext v = fieldValue .zext v) ∧
    (v.msb = true → fieldValue .sext v = fieldValue .zext v - 2 ^ w)

/-! ### Hobbywing resynchronizer -/

/-- R142: while `HR_SKIP > 0` the byte is discarded unseen and the count goes down by one; after a collision exactly 11
bytes take this case, answering data 10 down to 0. -/
def Obligations.HrByteSkips : Prop :=
  (∀ (b : Byte) (s : State), 0 < s.hrSkip.toNat → exec (.hrByte b) s = .next
    { s with hrSkip := s.hrSkip - 1#4, rsp := some ⟨.hrSkipped, (s.hrSkip - 1#4).setWidth 8⟩ }) ∧
  (∀ (x : Vector Byte 11) (s : State), s.hrSkip = 0#4 → s.hrCnt = 1#5 →
    execAll (.hrByte 0x9B#8 :: x.toList.map .hrByte) s = .next
      { s with hrCnt := 0#5, rsp := some ⟨.hrSkipped, 0x00#8⟩ } ∧
    responses (.hrByte 0x9B#8 :: x.toList.map .hrByte) s =
      ⟨.hrCollision, 0x0B#8⟩ :: (List.range 11).reverse.map fun k => ⟨.hrSkipped, BitVec.ofNat 8 k⟩)

/-- R143: idle and the byte is the sentinel. -/
def Obligations.HrByteSyncs : Prop :=
  ∀ s : State, s.hrSkip = 0#4 → s.hrCnt = 0#5 →
    exec (.hrByte 0x9B#8) s = .next { s with hrCnt := 1#5, rsp := some ⟨.hrSync, 0x01#8⟩ }

/-- R144: a sentinel straight after a sentinel aborts to idle and schedules 11 bytes to discard; nothing is stored, and
after those 11 bytes the search starts afresh. -/
def Obligations.HrByteCollides : Prop :=
  ∀ s : State, s.hrSkip = 0#4 → s.hrCnt = 1#5 →
    exec (.hrByte 0x9B#8) s = .next { s with hrCnt := 0#5, hrSkip := 11#4, rsp := some ⟨.hrCollision, 0x0B#8⟩ } ∧
    (∀ x : Vector Byte 11, ∃ t, execAll (.hrByte 0x9B#8 :: x.toList.map .hrByte) s = .next t ∧
      t.hrCnt = 0#5 ∧ t.hrSkip = 0#4 ∧ t.hpData = s.hpData)

/-- R145: in packet mode, not full and not a collision, the byte is stored at cell `HR_CNT - 1`; 0x9B is ordinary data
once `HR_CNT >= 2`. -/
def Obligations.HrByteStores : Prop :=
  ∀ (b : Byte) (s : State) (h : 1 ≤ s.hrCnt.toNat ∧ s.hrCnt.toNat ≤ 17), s.hrSkip = 0#4 →
    (s.hrCnt = 1#5 → b ≠ 0x9B#8) →
    exec (.hrByte b) s = .next
      { s with
        hpData := s.hpData.set (s.hrCnt.toNat - 1) (some b) (by omega)
        hrCnt := s.hrCnt + 1#5
        rsp := some ⟨.hrStored, (s.hrCnt + 1#5).setWidth 8⟩ }

/-- R146: the 18th byte is stored in cell 17, the packet is announced ready and the resynchronizer is idle again. -/
def Obligations.HrByteCompletesThePacket : Prop :=
  ∀ (b : Byte) (s : State), s.hrSkip = 0#4 → s.hrCnt = 18#5 →
    exec (.hrByte b) s = .next
      { s with hpData := s.hpData.set 17 (some b), hrCnt := 0#5, rsp := some ⟨.hrPktReady, 0x00#8⟩ }

/-- R147: idle and not the sentinel: discarded, no state change. -/
def Obligations.HrByteIdles : Prop :=
  ∀ (b : Byte) (s : State), s.hrSkip = 0#4 → s.hrCnt = 0#5 → b ≠ 0x9B#8 →
    exec (.hrByte b) s = .next { s with rsp := some ⟨.hrIdle, 0x00#8⟩ }

/-- R148: the reachable states of the two counters (no others, and each of the 30 is reached from reset), and every
transition between them. -/
def Obligations.ResyncStateGraph : Prop :=
  (∀ S N : Nat, (S = 0 ∧ N ≤ 18) ∨ (1 ≤ S ∧ S ≤ 11 ∧ N = 0) →
    ∃ (bs : List Byte) (t : State), execAll (bs.map .hrByte) State.reset = .next t ∧
      t.hrSkip.toNat = S ∧ t.hrCnt.toNat = N) ∧
  ∀ (b : Byte) (s : State), s.Inv →
    ((s.hrSkip.toNat = 0 ∧ s.hrCnt.toNat = 0) ∨ (s.hrSkip.toNat = 0 ∧ 1 ≤ s.hrCnt.toNat ∧ s.hrCnt.toNat ≤ 18) ∨
      (1 ≤ s.hrSkip.toNat ∧ s.hrSkip.toNat ≤ 11 ∧ s.hrCnt.toNat = 0)) ∧
    ∃ t, exec (.hrByte b) s = .next t ∧
      (t.hrSkip.toNat, t.hrCnt.toNat) =
        (if 1 ≤ s.hrSkip.toNat then (s.hrSkip.toNat - 1, 0)
         else if s.hrCnt.toNat = 0 then (if b = 0x9B#8 then (0, 1) else (0, 0))
         else if s.hrCnt.toNat = 1 then (if b = 0x9B#8 then (11, 0) else (0, 2))
         else if s.hrCnt.toNat ≤ 17 then (0, s.hrCnt.toNat + 1)
         else (0, 0)) ∧
      (∀ k : Fin 18, t.hpData[k.val] =
        if s.hrSkip.toNat = 0 ∧ s.hrCnt.toNat = k.val + 1 ∧ ¬ (s.hrCnt.toNat = 1 ∧ b = 0x9B#8) then some b
        else s.hpData[k.val]) ∧
      ((∃ d, t.rsp = some ⟨.hrPktReady, d⟩) ↔ s.hrSkip.toNat = 0 ∧ s.hrCnt.toNat = 18)

/-- R31 (g), R150: from idle, a sentinel and 18 bytes of which the first is not 0x9B give `HR_PKT_READY` on exactly the
19th byte, and `HP_DATA` then holds the 18 bytes in order. -/
def Obligations.SentinelAndEighteenBytesMakeAPacket : Prop :=
  ∀ (p : Vector Byte 18) (s : State), s.hrSkip = 0#4 → s.hrCnt = 0#5 → p[0] ≠ 0x9B#8 →
    execAll (.hrByte 0x9B#8 :: p.toList.map .hrByte) s = .next
      { s with hpData := p.map some, rsp := some ⟨.hrPktReady, 0x00#8⟩ } ∧
    responses (.hrByte 0x9B#8 :: p.toList.map .hrByte) s =
      ⟨.hrSync, 0x01#8⟩ :: ((List.range 17).map (fun k => ⟨.hrStored, BitVec.ofNat 8 (k + 2)⟩) ++
        [⟨.hrPktReady, 0x00#8⟩])

/-- R151: from idle, three sentinels and 16 arbitrary bytes: sync, collision, eleven skips, then idle discards until a
sentinel; no `HR_PKT_READY` among the 19 responses. -/
def Obligations.CollisionEmitsNoFalsePacket : Prop :=
  ∀ (x : Vector Byte 16) (s : State), s.hrSkip = 0#4 → s.hrCnt = 0#5 →
    let stream := [0x9B#8, 0x9B#8, 0x9B#8] ++ x.toList
    let rs := responses (stream.map .hrByte) s
    rs.length = 19 ∧
    rs.take 13 = ⟨.hrSync, 0x01#8⟩ :: ⟨.hrCollision, 0x0B#8⟩ ::
      (List.range 11).reverse.map (fun k => ⟨.hrSkipped, BitVec.ofNat 8 k⟩) ∧
    (∀ j : Fin 6, (∀ k : Fin 6, k ≤ j → x[10 + k.val] ≠ 0x9B#8) → rs[13 + j.val]? = some ⟨.hrIdle, 0x00#8⟩) ∧
    (∀ r ∈ rs, r.status ≠ .hrPktReady)

/-- R149: a command changes `HP_DATA` only as an `HR_BYTE` that takes case 4; from idle, as after `HR_PKT_READY`, no
sequence of commands with fewer than two `HR_BYTE` among them changes it. -/
def Obligations.ReadyPacketIsStable : Prop :=
  (∀ (i : Instr) (s t : State), exec i s = .next t → t.hpData ≠ s.hpData →
    ∃ b, i = .hrByte b ∧ s.hrSkip = 0#4 ∧ 1 ≤ s.hrCnt.toNat ∧ ¬ (s.hrCnt = 1#5 ∧ b = 0x9B#8)) ∧
  (∀ (is : List Instr) (s : State), s.hrSkip = 0#4 → s.hrCnt = 0#5 → is.countP isHrByte < 2 →
    ∃ t, execAll is s = .next t ∧ t.hpData = s.hpData)

/-! ### System commands and the register space -/

/-- R171: `NOP` answers OK:00 and changes no state; a cycle without a command differs only in giving no response. -/
def Obligations.NopDoesNothing : Prop :=
  (∀ s : State, exec .nop s = .next { s with rsp := some ⟨.ok, 0x00#8⟩ }) ∧
  encode .nop = 0x000#12 ∧
  (∀ a : Byte, a ≠ 0x00#8 → decode (0x0#4 ++ a) = .error .nonzeroArg) ∧
  (∀ (s : State) (rest : List PortIn),
    step (s.setPort (PortIn.command (encode .nop) :: rest)) =
      .next { s with port := rest, rsp := some ⟨.ok, 0x00#8⟩ } ∧
    step (s.setPort (PortIn.idle :: rest)) = .next { s with port := rest, rsp := none })

/-- R172, R51: `RD` of each mapped address answers the byte it holds, zero-extended, and changes nothing; `RD` of an
unmapped address changes nothing and answers `ERR_BAD_ARG` with data 0x00. Every mapped address answers `OK`, a cell never
written too (its byte: the next statement; `draws` is the model's own counter, log entry 5). -/
def Obligations.RdAnswersTheMappedByte : Prop :=
  ∀ s : State,
    exec (.rd 0x00#8) s = .next { s with rsp := some ⟨.ok, s.crcAcc⟩ } ∧
    exec (.rd 0x01#8) s = .next { s with rsp := some ⟨.ok, s.fbPos.setWidth 8⟩ } ∧
    exec (.rd 0x02#8) s = .next { s with rsp := some ⟨.ok, s.fbCap.setWidth 8⟩ } ∧
    exec (.rd 0x03#8) s = .next { s with rsp := some ⟨.ok, if s.fbPos = s.fbCap then 0x01#8 else 0x00#8⟩ } ∧
    exec (.rd 0x04#8) s = .next { s with rsp := some ⟨.ok, s.hrCnt.setWidth 8⟩ } ∧
    exec (.rd 0x05#8) s = .next { s with rsp := some ⟨.ok, s.hrSkip.setWidth 8⟩ } ∧
    (∀ (i : Fin 10) (b : Byte), s.fbData[i.val] = some b →
      exec (.rd (BitVec.ofNat 8 (0x10 + i.val))) s = .next { s with rsp := some ⟨.ok, b⟩ }) ∧
    (∀ (i : Fin 9) (b : Byte), s.kFrame[i.val] = some b →
      exec (.rd (BitVec.ofNat 8 (0x20 + i.val))) s = .next { s with rsp := some ⟨.ok, b⟩ }) ∧
    (∀ (i : Fin 18) (b : Byte), s.hpData[i.val] = some b →
      exec (.rd (BitVec.ofNat 8 (0x40 + i.val))) s = .next { s with rsp := some ⟨.ok, b⟩ }) ∧
    (∀ a : Byte, (0x06 ≤ a.toNat ∧ a.toNat ≤ 0x0F ∨ 0x1A ≤ a.toNat ∧ a.toNat ≤ 0x1F ∨
        0x29 ≤ a.toNat ∧ a.toNat ≤ 0x3F ∨ 0x52 ≤ a.toNat) →
      exec (.rd a) s = .next { s with rsp := some ⟨.errBadArg, 0x00#8⟩ }) ∧
    (∀ a : Byte, mappedAddress a = true → ∃ d n, exec (.rd a) s = .next { s with rsp := some ⟨.ok, d⟩, draws := n })

/-- R174: `RD` of a cell no command has written since reset answers status `OK` with a free byte, changes no register,
and the next such read draws another free byte. The form of the free byte (an opaque function of the model's own draw
counter) is the model's choice, log entry 5; the statement holds whatever it is. -/
def Obligations.RdOfAnUnwrittenCellIsFree : Prop :=
  (∀ (s : State) (i : Fin 10), s.fbData[i.val] = none →
    exec (.rd (BitVec.ofNat 8 (0x10 + i.val))) s = .next
      { s with rsp := some ⟨.ok, Config.freeByte s.draws⟩, draws := s.draws + 1 }) ∧
  (∀ (s : State) (i : Fin 9), s.kFrame[i.val] = none →
    exec (.rd (BitVec.ofNat 8 (0x20 + i.val))) s = .next
      { s with rsp := some ⟨.ok, Config.freeByte s.draws⟩, draws := s.draws + 1 }) ∧
  (∀ (s : State) (i : Fin 18), s.hpData[i.val] = none →
    exec (.rd (BitVec.ofNat 8 (0x40 + i.val))) s = .next
      { s with rsp := some ⟨.ok, Config.freeByte s.draws⟩, draws := s.draws + 1 })

/-- R41: 43 addresses are mapped and the rest are not; each mapped address names one byte, no byte has two addresses. -/
def Obligations.RegisterMapIsClosedAndWithoutAliases : Prop :=
  (∀ a : Byte, (regAt a).isSome = mappedAddress a) ∧
  (∀ r : Reg, regAt (regAddr r) = some r) ∧
  (∀ (a : Byte) (r : Reg), regAt a = some r → regAddr r = a) ∧
  ((List.range 256).filter fun n => (regAt (BitVec.ofNat 8 n)).isSome).length = 43

/-! ### Frames: what each command leaves unchanged -/

/-- R171, R172, R45: `NOP` and `RD` change no register and no cell, and take nothing off the port; `NOP` draws nothing. -/
def Obligations.FrameOfNopAndRd : Prop :=
  (∀ s t : State, exec .nop s = .next t → s.SameRegisters t ∧ t.port = s.port ∧ t.draws = s.draws) ∧
  (∀ (a : Byte) (s : State), ∃ t, exec (.rd a) s = .next t ∧ s.SameRegisters t ∧ t.port = s.port)

/-- R22, R83, R84: `CRC_INIT` and `CRC_UPD` change `CRC_ACC` and the response, and nothing else. -/
def Obligations.FrameOfCrcInitAndCrcUpd : Prop :=
  ∀ (i : Instr) (s t : State), (i = .crcInit ∨ ∃ b, i = .crcUpd b) → exec i s = .next t →
    t.fbPos = s.fbPos ∧ t.fbCap = s.fbCap ∧ t.hrCnt = s.hrCnt ∧ t.hrSkip = s.hrSkip ∧ t.port = s.port ∧
    t.draws = s.draws ∧
    (∀ k : Fin 10, t.fbData[k.val] = s.fbData[k.val]) ∧ (∀ k : Fin 9, t.kFrame[k.val] = s.kFrame[k.val]) ∧
    (∀ k : Fin 18, t.hpData[k.val] = s.hpData[k.val])

/-- R101: `FB_ARM` changes `FB_POS`, `FB_CAP` and the response, and nothing else: no cell is cleared. -/
def Obligations.FrameOfFbArm : Prop :=
  ∀ (n : Byte) (s t : State), exec (.fbArm n) s = .next t →
    t.crcAcc = s.crcAcc ∧ t.hrCnt = s.hrCnt ∧ t.hrSkip = s.hrSkip ∧ t.port = s.port ∧ t.draws = s.draws ∧
    (∀ k : Fin 10, t.fbData[k.val] = s.fbData[k.val]) ∧ (∀ k : Fin 9, t.kFrame[k.val] = s.kFrame[k.val]) ∧
    (∀ k : Fin 18, t.hpData[k.val] = s.hpData[k.val])

/-- R102: `FB_PUSH` changes `FB_POS`, the cell it indexed and the response; on a complete buffer no cell at all. -/
def Obligations.FrameOfFbPush : Prop :=
  ∀ (b : Byte) (s t : State), exec (.fbPush b) s = .next t →
    t.crcAcc = s.crcAcc ∧ t.fbCap = s.fbCap ∧ t.hrCnt = s.hrCnt ∧ t.hrSkip = s.hrSkip ∧ t.port = s.port ∧
    t.draws = s.draws ∧
    (∀ k : Fin 10, k.val ≠ s.fbPos.toNat ∨ s.fbPos = s.fbCap → t.fbData[k.val] = s.fbData[k.val]) ∧
    (∀ k : Fin 9, t.kFrame[k.val] = s.kFrame[k.val]) ∧ (∀ k : Fin 18, t.hpData[k.val] = s.hpData[k.val])

/-- R121: `KP_PARSE` changes `K_FRAME` (only under status `OK`) and the response, and nothing else: the buffer stays as
it is. -/
def Obligations.FrameOfKpParse : Prop :=
  ∀ s t : State, exec .kpParse s = .next t →
    t.crcAcc = s.crcAcc ∧ t.fbPos = s.fbPos ∧ t.fbCap = s.fbCap ∧ t.hrCnt = s.hrCnt ∧ t.hrSkip = s.hrSkip ∧
    t.port = s.port ∧ (s.Inv → t.draws = s.draws) ∧
    ((∀ d, t.rsp ≠ some ⟨.ok, d⟩) → t.kFrame = s.kFrame) ∧
    (∀ k : Fin 10, t.fbData[k.val] = s.fbData[k.val]) ∧ (∀ k : Fin 18, t.hpData[k.val] = s.hpData[k.val])

/-- R141: `HR_BYTE` changes `HR_CNT`, `HR_SKIP`, the cell `HR_CNT - 1` when it stores, and the response, and nothing else. -/
def Obligations.FrameOfHrByte : Prop :=
  ∀ (b : Byte) (s t : State), exec (.hrByte b) s = .next t →
    t.crcAcc = s.crcAcc ∧ t.fbPos = s.fbPos ∧ t.fbCap = s.fbCap ∧ t.port = s.port ∧ t.draws = s.draws ∧
    (∀ k : Fin 10, t.fbData[k.val] = s.fbData[k.val]) ∧ (∀ k : Fin 9, t.kFrame[k.val] = s.kFrame[k.val]) ∧
    (∀ k : Fin 18, k.val + 1 ≠ s.hrCnt.toNat ∨ s.hrSkip.toNat ≠ 0 ∨ (s.hrCnt = 1#5 ∧ b = 0x9B#8) →
      t.hpData[k.val] = s.hpData[k.val])
end

