-- ==== Sys2Proof/Laws/Decode.lean ====
section
/-! SUPPORT. The two fields of a command word: cutting a joined word gives back its parts, and joining them the word. -/

namespace Sys2Proof

@[simp] theorem opField_append (op : BitVec 4) (arg : Byte) : opField (op ++ arg) = op := by
  apply BitVec.eq_of_getLsbD_eq
  intro i hi
  simp only [opField, BitVec.getLsbD_extractLsb', BitVec.getLsbD_append]
  simp [hi]

@[simp] theorem argField_append (op : BitVec 4) (arg : Byte) : argField (op ++ arg) = arg := by
  apply BitVec.eq_of_getLsbD_eq
  intro i hi
  simp only [argField, BitVec.getLsbD_extractLsb', BitVec.getLsbD_append]
  simp [hi]

theorem append_fields (w : CmdWord) : opField w ++ argField w = w := by
  apply BitVec.eq_of_getLsbD_eq
  intro i hi
  simp only [opField, argField, BitVec.getLsbD_append, BitVec.getLsbD_extractLsb']
  split
  · simp [*]
  · have h8 : 8 + (i - 8) = i := by omega
    have h4 : i - 8 < 4 := by omega
    simp [h8, h4]

end Sys2Proof
end

