-- ==== Sys2Proof/Laws/State.lean ====
section
/-! SUPPORT. The fields of a state after each named update: one lemma per field per update, true by rfl. -/

namespace Sys2Proof.Machine

section setCrcAcc
variable (s : State) (v : Byte)
@[simp] theorem State.setCrcAcc_crcAcc : (s.setCrcAcc v).crcAcc = v := rfl
@[simp] theorem State.setCrcAcc_fbPos : (s.setCrcAcc v).fbPos = s.fbPos := rfl
@[simp] theorem State.setCrcAcc_fbCap : (s.setCrcAcc v).fbCap = s.fbCap := rfl
@[simp] theorem State.setCrcAcc_fbData : (s.setCrcAcc v).fbData = s.fbData := rfl
@[simp] theorem State.setCrcAcc_kFrame : (s.setCrcAcc v).kFrame = s.kFrame := rfl
@[simp] theorem State.setCrcAcc_hrCnt : (s.setCrcAcc v).hrCnt = s.hrCnt := rfl
@[simp] theorem State.setCrcAcc_hrSkip : (s.setCrcAcc v).hrSkip = s.hrSkip := rfl
@[simp] theorem State.setCrcAcc_hpData : (s.setCrcAcc v).hpData = s.hpData := rfl
@[simp] theorem State.setCrcAcc_rsp : (s.setCrcAcc v).rsp = s.rsp := rfl
@[simp] theorem State.setCrcAcc_port : (s.setCrcAcc v).port = s.port := rfl
@[simp] theorem State.setCrcAcc_draws : (s.setCrcAcc v).draws = s.draws := rfl
end setCrcAcc

section setFbPos
variable (s : State) (v : BitVec 4)
@[simp] theorem State.setFbPos_crcAcc : (s.setFbPos v).crcAcc = s.crcAcc := rfl
@[simp] theorem State.setFbPos_fbPos : (s.setFbPos v).fbPos = v := rfl
@[simp] theorem State.setFbPos_fbCap : (s.setFbPos v).fbCap = s.fbCap := rfl
@[simp] theorem State.setFbPos_fbData : (s.setFbPos v).fbData = s.fbData := rfl
@[simp] theorem State.setFbPos_kFrame : (s.setFbPos v).kFrame = s.kFrame := rfl
@[simp] theorem State.setFbPos_hrCnt : (s.setFbPos v).hrCnt = s.hrCnt := rfl
@[simp] theorem State.setFbPos_hrSkip : (s.setFbPos v).hrSkip = s.hrSkip := rfl
@[simp] theorem State.setFbPos_hpData : (s.setFbPos v).hpData = s.hpData := rfl
@[simp] theorem State.setFbPos_rsp : (s.setFbPos v).rsp = s.rsp := rfl
@[simp] theorem State.setFbPos_port : (s.setFbPos v).port = s.port := rfl
@[simp] theorem State.setFbPos_draws : (s.setFbPos v).draws = s.draws := rfl
end setFbPos

section setFbCap
variable (s : State) (v : BitVec 4)
@[simp] theorem State.setFbCap_crcAcc : (s.setFbCap v).crcAcc = s.crcAcc := rfl
@[simp] theorem State.setFbCap_fbPos : (s.setFbCap v).fbPos = s.fbPos := rfl
@[simp] theorem State.setFbCap_fbCap : (s.setFbCap v).fbCap = v := rfl
@[simp] theorem State.setFbCap_fbData : (s.setFbCap v).fbData = s.fbData := rfl
@[simp] theorem State.setFbCap_kFrame : (s.setFbCap v).kFrame = s.kFrame := rfl
@[simp] theorem State.setFbCap_hrCnt : (s.setFbCap v).hrCnt = s.hrCnt := rfl
@[simp] theorem State.setFbCap_hrSkip : (s.setFbCap v).hrSkip = s.hrSkip := rfl
@[simp] theorem State.setFbCap_hpData : (s.setFbCap v).hpData = s.hpData := rfl
@[simp] theorem State.setFbCap_rsp : (s.setFbCap v).rsp = s.rsp := rfl
@[simp] theorem State.setFbCap_port : (s.setFbCap v).port = s.port := rfl
@[simp] theorem State.setFbCap_draws : (s.setFbCap v).draws = s.draws := rfl
end setFbCap

section setFbData
variable (s : State) (v : Vector (Option Byte) 10)
@[simp] theorem State.setFbData_crcAcc : (s.setFbData v).crcAcc = s.crcAcc := rfl
@[simp] theorem State.setFbData_fbPos : (s.setFbData v).fbPos = s.fbPos := rfl
@[simp] theorem State.setFbData_fbCap : (s.setFbData v).fbCap = s.fbCap := rfl
@[simp] theorem State.setFbData_fbData : (s.setFbData v).fbData = v := rfl
@[simp] theorem State.setFbData_kFrame : (s.setFbData v).kFrame = s.kFrame := rfl
@[simp] theorem State.setFbData_hrCnt : (s.setFbData v).hrCnt = s.hrCnt := rfl
@[simp] theorem State.setFbData_hrSkip : (s.setFbData v).hrSkip = s.hrSkip := rfl
@[simp] theorem State.setFbData_hpData : (s.setFbData v).hpData = s.hpData := rfl
@[simp] theorem State.setFbData_rsp : (s.setFbData v).rsp = s.rsp := rfl
@[simp] theorem State.setFbData_port : (s.setFbData v).port = s.port := rfl
@[simp] theorem State.setFbData_draws : (s.setFbData v).draws = s.draws := rfl
end setFbData

section setKFrame
variable (s : State) (v : Vector (Option Byte) 9)
@[simp] theorem State.setKFrame_crcAcc : (s.setKFrame v).crcAcc = s.crcAcc := rfl
@[simp] theorem State.setKFrame_fbPos : (s.setKFrame v).fbPos = s.fbPos := rfl
@[simp] theorem State.setKFrame_fbCap : (s.setKFrame v).fbCap = s.fbCap := rfl
@[simp] theorem State.setKFrame_fbData : (s.setKFrame v).fbData = s.fbData := rfl
@[simp] theorem State.setKFrame_kFrame : (s.setKFrame v).kFrame = v := rfl
@[simp] theorem State.setKFrame_hrCnt : (s.setKFrame v).hrCnt = s.hrCnt := rfl
@[simp] theorem State.setKFrame_hrSkip : (s.setKFrame v).hrSkip = s.hrSkip := rfl
@[simp] theorem State.setKFrame_hpData : (s.setKFrame v).hpData = s.hpData := rfl
@[simp] theorem State.setKFrame_rsp : (s.setKFrame v).rsp = s.rsp := rfl
@[simp] theorem State.setKFrame_port : (s.setKFrame v).port = s.port := rfl
@[simp] theorem State.setKFrame_draws : (s.setKFrame v).draws = s.draws := rfl
end setKFrame

section setHrCnt
variable (s : State) (v : BitVec 5)
@[simp] theorem State.setHrCnt_crcAcc : (s.setHrCnt v).crcAcc = s.crcAcc := rfl
@[simp] theorem State.setHrCnt_fbPos : (s.setHrCnt v).fbPos = s.fbPos := rfl
@[simp] theorem State.setHrCnt_fbCap : (s.setHrCnt v).fbCap = s.fbCap := rfl
@[simp] theorem State.setHrCnt_fbData : (s.setHrCnt v).fbData = s.fbData := rfl
@[simp] theorem State.setHrCnt_kFrame : (s.setHrCnt v).kFrame = s.kFrame := rfl
@[simp] theorem State.setHrCnt_hrCnt : (s.setHrCnt v).hrCnt = v := rfl
@[simp] theorem State.setHrCnt_hrSkip : (s.setHrCnt v).hrSkip = s.hrSkip := rfl
@[simp] theorem State.setHrCnt_hpData : (s.setHrCnt v).hpData = s.hpData := rfl
@[simp] theorem State.setHrCnt_rsp : (s.setHrCnt v).rsp = s.rsp := rfl
@[simp] theorem State.setHrCnt_port : (s.setHrCnt v).port = s.port := rfl
@[simp] theorem State.setHrCnt_draws : (s.setHrCnt v).draws = s.draws := rfl
end setHrCnt

section setHrSkip
variable (s : State) (v : BitVec 4)
@[simp] theorem State.setHrSkip_crcAcc : (s.setHrSkip v).crcAcc = s.crcAcc := rfl
@[simp] theorem State.setHrSkip_fbPos : (s.setHrSkip v).fbPos = s.fbPos := rfl
@[simp] theorem State.setHrSkip_fbCap : (s.setHrSkip v).fbCap = s.fbCap := rfl
@[simp] theorem State.setHrSkip_fbData : (s.setHrSkip v).fbData = s.fbData := rfl
@[simp] theorem State.setHrSkip_kFrame : (s.setHrSkip v).kFrame = s.kFrame := rfl
@[simp] theorem State.setHrSkip_hrCnt : (s.setHrSkip v).hrCnt = s.hrCnt := rfl
@[simp] theorem State.setHrSkip_hrSkip : (s.setHrSkip v).hrSkip = v := rfl
@[simp] theorem State.setHrSkip_hpData : (s.setHrSkip v).hpData = s.hpData := rfl
@[simp] theorem State.setHrSkip_rsp : (s.setHrSkip v).rsp = s.rsp := rfl
@[simp] theorem State.setHrSkip_port : (s.setHrSkip v).port = s.port := rfl
@[simp] theorem State.setHrSkip_draws : (s.setHrSkip v).draws = s.draws := rfl
end setHrSkip

section setHpData
variable (s : State) (v : Vector (Option Byte) 18)
@[simp] theorem State.setHpData_crcAcc : (s.setHpData v).crcAcc = s.crcAcc := rfl
@[simp] theorem State.setHpData_fbPos : (s.setHpData v).fbPos = s.fbPos := rfl
@[simp] theorem State.setHpData_fbCap : (s.setHpData v).fbCap = s.fbCap := rfl
@[simp] theorem State.setHpData_fbData : (s.setHpData v).fbData = s.fbData := rfl
@[simp] theorem State.setHpData_kFrame : (s.setHpData v).kFrame = s.kFrame := rfl
@[simp] theorem State.setHpData_hrCnt : (s.setHpData v).hrCnt = s.hrCnt := rfl
@[simp] theorem State.setHpData_hrSkip : (s.setHpData v).hrSkip = s.hrSkip := rfl
@[simp] theorem State.setHpData_hpData : (s.setHpData v).hpData = v := rfl
@[simp] theorem State.setHpData_rsp : (s.setHpData v).rsp = s.rsp := rfl
@[simp] theorem State.setHpData_port : (s.setHpData v).port = s.port := rfl
@[simp] theorem State.setHpData_draws : (s.setHpData v).draws = s.draws := rfl
end setHpData

section setRsp
variable (s : State) (v : Option Response)
@[simp] theorem State.setRsp_crcAcc : (s.setRsp v).crcAcc = s.crcAcc := rfl
@[simp] theorem State.setRsp_fbPos : (s.setRsp v).fbPos = s.fbPos := rfl
@[simp] theorem State.setRsp_fbCap : (s.setRsp v).fbCap = s.fbCap := rfl
@[simp] theorem State.setRsp_fbData : (s.setRsp v).fbData = s.fbData := rfl
@[simp] theorem State.setRsp_kFrame : (s.setRsp v).kFrame = s.kFrame := rfl
@[simp] theorem State.setRsp_hrCnt : (s.setRsp v).hrCnt = s.hrCnt := rfl
@[simp] theorem State.setRsp_hrSkip : (s.setRsp v).hrSkip = s.hrSkip := rfl
@[simp] theorem State.setRsp_hpData : (s.setRsp v).hpData = s.hpData := rfl
@[simp] theorem State.setRsp_rsp : (s.setRsp v).rsp = v := rfl
@[simp] theorem State.setRsp_port : (s.setRsp v).port = s.port := rfl
@[simp] theorem State.setRsp_draws : (s.setRsp v).draws = s.draws := rfl
end setRsp

section setPort
variable (s : State) (v : List PortIn)
@[simp] theorem State.setPort_crcAcc : (s.setPort v).crcAcc = s.crcAcc := rfl
@[simp] theorem State.setPort_fbPos : (s.setPort v).fbPos = s.fbPos := rfl
@[simp] theorem State.setPort_fbCap : (s.setPort v).fbCap = s.fbCap := rfl
@[simp] theorem State.setPort_fbData : (s.setPort v).fbData = s.fbData := rfl
@[simp] theorem State.setPort_kFrame : (s.setPort v).kFrame = s.kFrame := rfl
@[simp] theorem State.setPort_hrCnt : (s.setPort v).hrCnt = s.hrCnt := rfl
@[simp] theorem State.setPort_hrSkip : (s.setPort v).hrSkip = s.hrSkip := rfl
@[simp] theorem State.setPort_hpData : (s.setPort v).hpData = s.hpData := rfl
@[simp] theorem State.setPort_rsp : (s.setPort v).rsp = s.rsp := rfl
@[simp] theorem State.setPort_port : (s.setPort v).port = v := rfl
@[simp] theorem State.setPort_draws : (s.setPort v).draws = s.draws := rfl
end setPort

section setDraws
variable (s : State) (v : Nat)
@[simp] theorem State.setDraws_crcAcc : (s.setDraws v).crcAcc = s.crcAcc := rfl
@[simp] theorem State.setDraws_fbPos : (s.setDraws v).fbPos = s.fbPos := rfl
@[simp] theorem State.setDraws_fbCap : (s.setDraws v).fbCap = s.fbCap := rfl
@[simp] theorem State.setDraws_fbData : (s.setDraws v).fbData = s.fbData := rfl
@[simp] theorem State.setDraws_kFrame : (s.setDraws v).kFrame = s.kFrame := rfl
@[simp] theorem State.setDraws_hrCnt : (s.setDraws v).hrCnt = s.hrCnt := rfl
@[simp] theorem State.setDraws_hrSkip : (s.setDraws v).hrSkip = s.hrSkip := rfl
@[simp] theorem State.setDraws_hpData : (s.setDraws v).hpData = s.hpData := rfl
@[simp] theorem State.setDraws_rsp : (s.setDraws v).rsp = s.rsp := rfl
@[simp] theorem State.setDraws_port : (s.setDraws v).port = s.port := rfl
@[simp] theorem State.setDraws_draws : (s.setDraws v).draws = v := rfl
end setDraws

end Sys2Proof.Machine
end

