-- ==== Sys2Proof/Laws/Ops.lean ====
section
/-! SUPPORT. One lemma (or a few) per shared operation: everything it can do, to be cited instead of unfolding it. -/

namespace Sys2Proof.Machine

/-! ### Answering -/

theorem respond_next_iff (st : Status) (d : Byte) (s t : State) :
    respond st d s = .next t ↔ t = s.setRsp (some ⟨st, d⟩) := by
  constructor
  · intro h; cases h; rfl
  · rintro rfl; rfl

/-! ### Cells -/

@[simp] theorem readCell_some (b : Byte) (n : Nat) : readCell (some b) n = (b, n) := rfl

@[simp] theorem readCell_none (n : Nat) : readCell none n = (Config.freeByte n, n + 1) := rfl

/-- Written cells read as their bytes and draw nothing. -/
@[simp] theorem readCells_of_written (bs : List Byte) (n : Nat) : readCells (bs.map some) n = (bs, n) := by
  induction bs with
  | nil => rfl
  | cons b bs ih => simp [readCells, ih]

theorem length_readCells (cs : List (Option Byte)) (n : Nat) : (readCells cs n).1.length = cs.length := by
  induction cs generalizing n with
  | nil => rfl
  | cons c cs ih => simp [readCells, ih]

/-- A list of cells that all hold a byte is the list of those bytes. -/
theorem exists_bytes_of_written {cs : List (Option Byte)} (h : ∀ c ∈ cs, c.isSome = true) :
    ∃ bs : List Byte, cs = bs.map some := by
  induction cs with
  | nil => exact ⟨[], rfl⟩
  | cons c cs ih =>
    obtain ⟨bs, rfl⟩ := ih fun x hx => h x (List.mem_cons_of_mem _ hx)
    obtain ⟨b, rfl⟩ := Option.isSome_iff_exists.mp (h c List.mem_cons_self)
    exact ⟨b :: bs, rfl⟩

section Store
variable (i : Nat) (b : Byte) (s : State)

/-- A store changes the one cell it names. -/
theorem storeFbData_getElem (k : Nat) (hk : k < 10) :
    (storeFbData i b s).fbData[k] = if i = k then some b else s.fbData[k] := by
  simp [storeFbData, Vector.getElem_setIfInBounds]

theorem storeHpData_getElem (k : Nat) (hk : k < 18) :
    (storeHpData i b s).hpData[k] = if i = k then some b else s.hpData[k] := by
  simp [storeHpData, Vector.getElem_setIfInBounds]

/-- Inside the array a store is the plain write of the cell. -/
theorem storeFbData_of_lt (h : i < 10) : storeFbData i b s = s.setFbData (s.fbData.set i (some b) h) := by
  unfold storeFbData
  congr 1
  apply Vector.ext
  intro k hk
  rw [Vector.getElem_setIfInBounds, Vector.getElem_set]

theorem storeHpData_of_lt (h : i < 18) : storeHpData i b s = s.setHpData (s.hpData.set i (some b) h) := by
  unfold storeHpData
  congr 1
  apply Vector.ext
  intro k hk
  rw [Vector.getElem_setIfInBounds, Vector.getElem_set]

@[simp] theorem storeFbData_fbData : (storeFbData i b s).fbData = s.fbData.setIfInBounds i (some b) := rfl
@[simp] theorem storeFbData_crcAcc : (storeFbData i b s).crcAcc = s.crcAcc := rfl
@[simp] theorem storeFbData_fbPos : (storeFbData i b s).fbPos = s.fbPos := rfl
@[simp] theorem storeFbData_fbCap : (storeFbData i b s).fbCap = s.fbCap := rfl
@[simp] theorem storeFbData_kFrame : (storeFbData i b s).kFrame = s.kFrame := rfl
@[simp] theorem storeFbData_hrCnt : (storeFbData i b s).hrCnt = s.hrCnt := rfl
@[simp] theorem storeFbData_hrSkip : (storeFbData i b s).hrSkip = s.hrSkip := rfl
@[simp] theorem storeFbData_hpData : (storeFbData i b s).hpData = s.hpData := rfl
@[simp] theorem storeFbData_rsp : (storeFbData i b s).rsp = s.rsp := rfl
@[simp] theorem storeFbData_port : (storeFbData i b s).port = s.port := rfl
@[simp] theorem storeFbData_draws : (storeFbData i b s).draws = s.draws := rfl

@[simp] theorem storeHpData_hpData : (storeHpData i b s).hpData = s.hpData.setIfInBounds i (some b) := rfl
@[simp] theorem storeHpData_crcAcc : (storeHpData i b s).crcAcc = s.crcAcc := rfl
@[simp] theorem storeHpData_fbPos : (storeHpData i b s).fbPos = s.fbPos := rfl
@[simp] theorem storeHpData_fbCap : (storeHpData i b s).fbCap = s.fbCap := rfl
@[simp] theorem storeHpData_fbData : (storeHpData i b s).fbData = s.fbData := rfl
@[simp] theorem storeHpData_kFrame : (storeHpData i b s).kFrame = s.kFrame := rfl
@[simp] theorem storeHpData_hrCnt : (storeHpData i b s).hrCnt = s.hrCnt := rfl
@[simp] theorem storeHpData_hrSkip : (storeHpData i b s).hrSkip = s.hrSkip := rfl
@[simp] theorem storeHpData_rsp : (storeHpData i b s).rsp = s.rsp := rfl
@[simp] theorem storeHpData_port : (storeHpData i b s).port = s.port := rfl
@[simp] theorem storeHpData_draws : (storeHpData i b s).draws = s.draws := rfl

/-- The latch copies cells 0 to 8 and changes nothing else. -/
theorem latchFrame_getElem (k : Nat) (hk : k < 9) : (latchFrame s).kFrame[k] = s.fbData[k] := by
  simp [latchFrame]

@[simp] theorem latchFrame_crcAcc : (latchFrame s).crcAcc = s.crcAcc := rfl
@[simp] theorem latchFrame_fbPos : (latchFrame s).fbPos = s.fbPos := rfl
@[simp] theorem latchFrame_fbCap : (latchFrame s).fbCap = s.fbCap := rfl
@[simp] theorem latchFrame_fbData : (latchFrame s).fbData = s.fbData := rfl
@[simp] theorem latchFrame_hrCnt : (latchFrame s).hrCnt = s.hrCnt := rfl
@[simp] theorem latchFrame_hrSkip : (latchFrame s).hrSkip = s.hrSkip := rfl
@[simp] theorem latchFrame_hpData : (latchFrame s).hpData = s.hpData := rfl
@[simp] theorem latchFrame_rsp : (latchFrame s).rsp = s.rsp := rfl
@[simp] theorem latchFrame_port : (latchFrame s).port = s.port := rfl
@[simp] theorem latchFrame_draws : (latchFrame s).draws = s.draws := rfl

end Store

/-! ### Operands -/

theorem capacityOperand_legal {n : Byte} (h : n.toNat ≤ 10) : capacityOperand n = some (n.setWidth 4) :=
  if_pos h

theorem capacityOperand_refused {n : Byte} (h : 10 < n.toNat) : capacityOperand n = none :=
  if_neg (Nat.not_le.mpr h)

/-- A legal capacity keeps its value in four bits. -/
theorem toNat_capacity {n : Byte} (h : n.toNat ≤ 10) : (n.setWidth 4).toNat = n.toNat := by
  simp only [BitVec.toNat_setWidth]; omega

/-- The map of R41 at the address of a named byte (20_memory.md). -/
theorem regAt_fbData (i : Fin 10) : regAt (BitVec.ofNat 8 (0x10 + i.val)) = some (.fbData i) := by
  revert i; decide

theorem regAt_kFrame (i : Fin 9) : regAt (BitVec.ofNat 8 (0x20 + i.val)) = some (.kFrame i) := by
  revert i; decide

theorem regAt_hpData (i : Fin 18) : regAt (BitVec.ofNat 8 (0x40 + i.val)) = some (.hpData i) := by
  revert i; decide

/-! ### The parser's tests -/

theorem frameReady_iff (s : State) : frameReady s = true ↔ s.fbCap = 10#4 ∧ s.fbPos = 10#4 := by
  simp [frameReady, ← BitVec.toNat_inj]

theorem frameValid_iff (bs : List Byte) (h : bs.length = 10) :
    frameValid bs = true ↔ bs[9] = crc8 (bs.take 9) := by
  simp [frameValid, List.getElem?_eq_getElem (show 9 < bs.length by omega)]

/-! ### The checksum function -/

@[simp] theorem crc8_nil : crc8 [] = Config.crcSeed := rfl

@[simp] theorem foldl_crc8Byte_crc8 (m bs : List Byte) : bs.foldl crc8Byte (crc8 m) = crc8 (m ++ bs) := by
  simp [crc8]

/-! ### The port -/

@[simp] theorem nextCycle_cons (s : State) (c : PortIn) (rest : List PortIn) :
    nextCycle (s.setPort (c :: rest)) = c := rfl

@[simp] theorem takeCycle_cons (s : State) (c : PortIn) (rest : List PortIn) :
    takeCycle (s.setPort (c :: rest)) = s.setPort rest := rfl

@[simp] theorem takeCycle_port (s : State) : (takeCycle s).port = s.port.tail := rfl

end Sys2Proof.Machine
end

