-- ==== Sys2Proof/Laws/Meanings.lean ====
section
/-! SUPPORT. What each meaning and the step can do, once: if it answers `next t`, then one of these cases holds. -/

namespace Sys2Proof.Machine

variable {s t : State} {b n a : Byte}

theorem execNop_cases (h : execNop s = .next t) : t = s.setRsp (some ⟨.ok, 0x00#8⟩) :=
  (respond_next_iff ..).mp h

theorem execCrcInit_cases (h : execCrcInit s = .next t) :
    t = (s.setCrcAcc Config.crcSeed).setRsp (some ⟨.ok, 0x00#8⟩) :=
  (respond_next_iff ..).mp h

theorem execCrcUpd_cases (h : execCrcUpd b s = .next t) :
    t = (s.setCrcAcc (crc8Byte s.crcAcc b)).setRsp (some ⟨.ok, crc8Byte s.crcAcc b⟩) :=
  (respond_next_iff ..).mp h

theorem execFbArm_cases (h : execFbArm n s = .next t) :
    (n.toNat ≤ 10 ∧ t = ((s.setFbPos 0#4).setFbCap (n.setWidth 4)).setRsp (some ⟨.ok, 0x00#8⟩)) ∨
    (10 < n.toNat ∧ t = s.setRsp (some ⟨.errBadArg, 0x00#8⟩)) := by
  rcases Nat.lt_or_ge 10 n.toNat with hn | hn
  · rw [execFbArm, capacityOperand_refused hn] at h
    exact .inr ⟨hn, (respond_next_iff ..).mp h⟩
  · rw [execFbArm, capacityOperand_legal hn] at h
    exact .inl ⟨hn, (respond_next_iff ..).mp h⟩

theorem execFbPush_cases (h : execFbPush b s = .next t) :
    (s.fbPos = s.fbCap ∧ t = s.setRsp (some ⟨.fbDropped, zext8 s.fbPos⟩)) ∨
    (s.fbPos ≠ s.fbCap ∧ t = ((storeFbData s.fbPos.toNat b s).setFbPos (s.fbPos + 1#4)).setRsp
      (some ⟨.ok, zext8 (s.fbPos + 1#4)⟩)) := by
  unfold execFbPush at h
  split at h
  · exact .inl ⟨‹_›, (respond_next_iff ..).mp h⟩
  · exact .inr ⟨‹_›, (respond_next_iff ..).mp h⟩

/-- The bytes `KP_PARSE` sees and the draws its read makes. -/
abbrev frameRead (s : State) : List Byte × Nat := readCells s.fbData.toList s.draws

theorem execKpParse_cases (h : execKpParse s = .next t) :
    (frameReady s = false ∧ t = s.setRsp (some ⟨.kpNotReady, zext8 s.fbPos⟩)) ∨
    (frameReady s = true ∧ frameValid (frameRead s).1 = true ∧
      t = (latchFrame (s.setDraws (frameRead s).2)).setRsp (some ⟨.ok, crc8 ((frameRead s).1.take 9)⟩)) ∨
    (frameReady s = true ∧ frameValid (frameRead s).1 = false ∧
      t = (s.setDraws (frameRead s).2).setRsp (some ⟨.kpCrcFail, crc8 ((frameRead s).1.take 9)⟩)) := by
  cases hr : frameReady s with
  | false =>
    rw [execKpParse, hr] at h
    exact .inl ⟨rfl, (respond_next_iff ..).mp h⟩
  | true =>
    cases hv : frameValid (frameRead s).1 with
    | false =>
      simp only [execKpParse, hr, hv, if_true, Bool.false_eq_true, if_false] at h
      exact .inr (.inr ⟨rfl, rfl, (respond_next_iff ..).mp h⟩)
    | true =>
      simp only [execKpParse, hr, hv, if_true] at h
      exact .inr (.inl ⟨rfl, rfl, (respond_next_iff ..).mp h⟩)

theorem execHrByte_cases (h : execHrByte b s = .next t) :
    (0 < s.hrSkip.toNat ∧ t = (s.setHrSkip (s.hrSkip - 1#4)).setRsp (some ⟨.hrSkipped, zext8 (s.hrSkip - 1#4)⟩)) ∨
    (s.hrSkip = 0#4 ∧ s.hrCnt = 0#5 ∧ b = 0x9B#8 ∧ t = (s.setHrCnt 1#5).setRsp (some ⟨.hrSync, 0x01#8⟩)) ∨
    (s.hrSkip = 0#4 ∧ s.hrCnt = 1#5 ∧ b = 0x9B#8 ∧
      t = ((s.setHrCnt 0#5).setHrSkip 11#4).setRsp (some ⟨.hrCollision, 0x0B#8⟩)) ∨
    (s.hrSkip = 0#4 ∧ 1 ≤ s.hrCnt.toNat ∧ s.hrCnt ≠ 18#5 ∧ ¬ (s.hrCnt = 1#5 ∧ b = 0x9B#8) ∧
      t = ((storeHpData (s.hrCnt.toNat - 1) b s).setHrCnt (s.hrCnt + 1#5)).setRsp
        (some ⟨.hrStored, zext8 (s.hrCnt + 1#5)⟩)) ∨
    (s.hrSkip = 0#4 ∧ s.hrCnt = 18#5 ∧
      t = ((storeHpData 17 b s).setHrCnt 0#5).setRsp (some ⟨.hrPktReady, 0x00#8⟩)) ∨
    (s.hrSkip = 0#4 ∧ s.hrCnt = 0#5 ∧ b ≠ 0x9B#8 ∧ t = s.setRsp (some ⟨.hrIdle, 0x00#8⟩)) := by
  unfold execHrByte at h
  split at h
  · exact .inl ⟨‹_›, (respond_next_iff ..).mp h⟩
  have hk : s.hrSkip = 0#4 := by simpa [← BitVec.toNat_inj] using ‹¬ 0 < s.hrSkip.toNat›
  split at h
  · rename_i hc
    exact .inr (.inl ⟨hk, hc.1, hc.2, (respond_next_iff ..).mp h⟩)
  rename_i hsync
  split at h
  · rename_i hc
    exact .inr (.inr (.inl ⟨hk, hc.1, hc.2, (respond_next_iff ..).mp h⟩))
  rename_i hcol
  split at h
  · rename_i h1
    split at h
    · rename_i h18
      have h18' : s.hrCnt = 18#5 := by simpa [← BitVec.toNat_inj] using h18
      refine .inr (.inr (.inr (.inr (.inl ⟨hk, h18', ?_⟩))))
      have := (respond_next_iff ..).mp h
      rwa [h18] at this
    · rename_i h18
      refine .inr (.inr (.inr (.inl ⟨hk, h1, ?_, hcol, (respond_next_iff ..).mp h⟩)))
      intro hc; rw [hc] at h18; exact h18 rfl
  · rename_i h1
    have h0 : s.hrCnt = 0#5 := by
      have : s.hrCnt.toNat = 0 := by omega
      simpa [← BitVec.toNat_inj] using this
    exact .inr (.inr (.inr (.inr (.inr ⟨hk, h0, fun hb => hsync ⟨h0, hb⟩, (respond_next_iff ..).mp h⟩))))

theorem execRd_cases (h : execRd a s = .next t) :
    (∃ r, regAt a = some r ∧ t = (s.setDraws (readReg r s).2).setRsp (some ⟨.ok, (readReg r s).1⟩)) ∨
    (regAt a = none ∧ t = s.setRsp (some ⟨.errBadArg, 0x00#8⟩)) := by
  unfold execRd memRead at h
  cases hr : regAt a with
  | none =>
    rw [hr] at h
    exact .inr ⟨rfl, (respond_next_iff ..).mp h⟩
  | some r =>
    rw [hr] at h
    exact .inl ⟨r, rfl, (respond_next_iff ..).mp h⟩

/-- Every meaning ends in `respond`, applied to a state with the same port. -/
theorem exec_eq_respond (i : Instr) (s : State) :
    ∃ st d u, exec i s = respond st d u ∧ u.port = s.port := by
  cases i with
  | nop => exact ⟨_, _, _, rfl, rfl⟩
  | crcInit => exact ⟨_, _, _, rfl, rfl⟩
  | crcUpd b => exact ⟨_, _, _, rfl, rfl⟩
  | fbArm n =>
    change ∃ st d u, execFbArm n s = respond st d u ∧ u.port = s.port
    unfold execFbArm
    split <;> exact ⟨_, _, _, rfl, rfl⟩
  | fbPush b =>
    change ∃ st d u, execFbPush b s = respond st d u ∧ u.port = s.port
    unfold execFbPush
    split <;> exact ⟨_, _, _, rfl, rfl⟩
  | kpParse =>
    change ∃ st d u, execKpParse s = respond st d u ∧ u.port = s.port
    unfold execKpParse
    split
    · dsimp only
      split <;> exact ⟨_, _, _, rfl, rfl⟩
    · exact ⟨_, _, _, rfl, rfl⟩
  | hrByte b =>
    change ∃ st d u, execHrByte b s = respond st d u ∧ u.port = s.port
    unfold execHrByte
    split
    · exact ⟨_, _, _, rfl, rfl⟩
    split
    · exact ⟨_, _, _, rfl, rfl⟩
    split
    · exact ⟨_, _, _, rfl, rfl⟩
    split
    · dsimp only
      split <;> exact ⟨_, _, _, rfl, rfl⟩
    · exact ⟨_, _, _, rfl, rfl⟩
  | rd a =>
    change ∃ st d u, execRd a s = respond st d u ∧ u.port = s.port
    unfold execRd
    split <;> exact ⟨_, _, _, rfl, rfl⟩

/-- Every meaning ends in a next state that presents a response and leaves the cycles still to come. -/
theorem exec_next (i : Instr) (s : State) : ∃ t r, exec i s = .next t ∧ t.rsp = some r ∧ t.port = s.port := by
  obtain ⟨st, d, u, h, hp⟩ := exec_eq_respond i s
  exact ⟨_, _, h, rfl, hp⟩

/-- A meaning neither reads nor changes the cycles still to come. -/
theorem exec_setPort {i : Instr} (p : List PortIn) (h : exec i s = .next t) : exec i (s.setPort p) = .next (t.setPort p) := by
  cases i with
  | nop => rw [execNop_cases h]; rfl
  | crcInit => rw [execCrcInit_cases h]; rfl
  | crcUpd b => rw [execCrcUpd_cases h]; rfl
  | fbArm n =>
    change execFbArm n s = _ at h
    change execFbArm n _ = _
    unfold execFbArm at *
    split at h <;> cases h <;> rfl
  | fbPush n =>
    change execFbPush n s = _ at h
    change execFbPush n _ = _
    unfold execFbPush at *
    rw [State.setPort_fbPos, State.setPort_fbCap]
    split at h <;> cases h
    · rw [if_pos ‹_›]; rfl
    · rw [if_neg ‹_›]; rfl
  | kpParse =>
    change execKpParse s = _ at h
    change execKpParse _ = _
    unfold execKpParse at *
    rw [show frameReady (s.setPort p) = frameReady s from rfl, State.setPort_fbData, State.setPort_draws]
    split at h
    · dsimp only at *
      rw [if_pos ‹_›]
      split at h <;> cases h
      · rw [if_pos ‹_›]; rfl
      · rw [if_neg ‹_›]; rfl
    · cases h; rw [if_neg ‹_›]; rfl
  | hrByte b => 
    change execHrByte b s = _ at h
    change execHrByte b _ = _
    unfold execHrByte at *
    rw [State.setPort_hrSkip, State.setPort_hrCnt]
    split at h
    · cases h; rw [if_pos ‹_›]; rfl
    rw [if_neg ‹_›]
    split at h
    · cases h; rw [if_pos ‹_›]; rfl
    rw [if_neg ‹_›]
    split at h
    · cases h; rw [if_pos ‹_›]; rfl
    rw [if_neg ‹_›]
    split at h
    · dsimp only at *
      rw [if_pos ‹_›]
      split at h <;> cases h
      · rw [if_pos ‹_›]; rfl
      · rw [if_neg ‹_›]; rfl
    · cases h; rw [if_neg ‹_›]; rfl
  | rd a =>
    change execRd a s = _ at h
    change execRd a _ = _
    unfold execRd memRead at *
    cases hr : regAt a with
    | none => rw [hr] at h; cases h; rfl
    | some r => rw [hr] at h; cases h; cases r <;> rfl

/-- What one clock edge can do. -/
theorem step_cases (h : step s = .next t) :
    ((nextCycle s).rst = true ∧ t = resetEdge (takeCycle s)) ∨
    ((nextCycle s).rst = false ∧ (nextCycle s).cmdValid = false ∧ t = idleEdge (takeCycle s)) ∨
    (∃ e, decode (nextCycle s).cmd = .error e ∧ t = (takeCycle s).setRsp (some ⟨.errIllegalOp, 0x00#8⟩)) ∨
    (∃ i, decode (nextCycle s).cmd = .ok i ∧ exec i (takeCycle s) = .next t) := by
  unfold step at h
  dsimp only at h
  split at h
  · cases h; exact .inl ⟨‹_›, rfl⟩
  rename_i hr
  split at h
  · split at h
    · rename_i i hi
      exact .inr (.inr (.inr ⟨i, hi, h⟩))
    · rename_i e he
      exact .inr (.inr (.inl ⟨e, he, (respond_next_iff ..).mp h⟩))
  · rename_i hv
    cases h
    exact .inr (.inl ⟨by simpa using hr, by simpa using hv, rfl⟩)

/-! ### Runs -/

/-- The first step of any machine's run that goes on. -/
theorem core_run_of_step (M : Host.Core) (k : Nat) {x y : M.State} (h : M.step x = .next y) :
    M.run (k + 1) x = M.run k y := by
  rw [Host.Core.run, h]

/-- The first step of a run that goes on. -/
theorem core_run_succ {k : Nat} (h : step s = .next t) :
    Sys2Proof.core.run (k + 1) s = Sys2Proof.core.run k t := by
  exact core_run_of_step Sys2Proof.core k h

theorem execAll_cons {i : Instr} {is : List Instr} (h : exec i s = .next t) :
    execAll (i :: is) s = execAll is t := by
  rw [execAll, h]

theorem execAll_append {is js : List Instr} (h : execAll is s = .next t) :
    execAll (is ++ js) s = execAll js t := by
  induction is generalizing s with
  | nil => cases h; rfl
  | cons i is ih =>
    obtain ⟨st, d, u, hu, -⟩ := exec_eq_respond i s
    rw [execAll_cons hu] at h
    rw [List.cons_append, execAll_cons hu, ih h]

theorem responses_cons {i : Instr} {is : List Instr} (h : exec i s = .next t) :
    responses (i :: is) s = t.rsp.toList ++ responses is t := by
  rw [responses, h]

end Sys2Proof.Machine
end

