-- ==== Sys2Proof/Laws/PerInstr.lean ====
section
/-! SUPPORT. Per-command families: one lemma per constructor of Instr. -/

namespace Sys2Proof.Laws.EncodesAssigned

/-- The command's encoding is an assigned word of the table (30_encoding.md R61). -/
def Statement (i : Instr) : Prop := assignedWord (encode i) = true

/-- A word with one of the five operand-carrying `op` codes is assigned whatever its `arg`. -/
theorem op_and_mask (op : BitVec 4) (arg : Byte) : (op ++ arg : BitVec 12) &&& 0xF00#12 = op ++ 0x00#8 := by
  have h : (0xF00#12 : BitVec 12) = 0xF#4 ++ 0x00#8 := by decide
  rw [h, BitVec.and_append]
  simp
  congr 1
  exact BitVec.and_allOnes

theorem nop : Statement .nop := by unfold Statement; decide
theorem crcInit : Statement .crcInit := by unfold Statement; decide
theorem crcUpd (b : Byte) : Statement (.crcUpd b) := by
  simp [Statement, assignedWord, encodingTable, TableRow.matchesWord, encode, Instr.op, Instr.arg, op_and_mask]
theorem fbArm (n : Byte) : Statement (.fbArm n) := by
  simp [Statement, assignedWord, encodingTable, TableRow.matchesWord, encode, Instr.op, Instr.arg, op_and_mask]
theorem fbPush (b : Byte) : Statement (.fbPush b) := by
  simp [Statement, assignedWord, encodingTable, TableRow.matchesWord, encode, Instr.op, Instr.arg, op_and_mask]
theorem kpParse : Statement .kpParse := by unfold Statement; decide
theorem hrByte (b : Byte) : Statement (.hrByte b) := by
  simp [Statement, assignedWord, encodingTable, TableRow.matchesWord, encode, Instr.op, Instr.arg, op_and_mask]
theorem rd (a : Byte) : Statement (.rd a) := by
  simp [Statement, assignedWord, encodingTable, TableRow.matchesWord, encode, Instr.op, Instr.arg, op_and_mask]

end Sys2Proof.Laws.EncodesAssigned
end

