-- ==== Sys2Proof/Tests/Slice0.lean ====
section
/-! SUPPORT. Tests of one step each, with expected values from spec/95_test_vectors.md and the rules' own examples, the
checks of WellFormed, words written out from 30_encoding.md R61, and a witness for the hypotheses of every statement of
Certificates/Slice0/Obligations.lean. -/

namespace Sys2Proof.Tests

open Sys2Proof.Machine

/-! ### Helpers -/

/-- The response a command gives. -/
def answer (r : Result) : Option Response :=
  match r with
  | .next t => t.rsp
  | .fault _ => none
  | .refused _ => none

/-- What holds of the next state. -/
def after (r : Result) (p : State → Bool) : Bool :=
  match r with
  | .next t => p t
  | .fault _ => false
  | .refused _ => false

/-- Frame A of 95_test_vectors.md section 4. -/
def frameA : Vector Byte 10 := #v[0x19, 0x06, 0x90, 0x04, 0xD2, 0x02, 0x37, 0x0A, 0xBC, 0x67]

/-- Frame A with byte 4 changed to D3. -/
def frameBad : Vector Byte 10 := #v[0x19, 0x06, 0x90, 0x04, 0xD3, 0x02, 0x37, 0x0A, 0xBC, 0x67]

/-- A complete buffer that holds `f`. -/
def ready (f : Vector Byte 10) : State :=
  { State.reset with fbPos := 10#4, fbCap := 10#4, fbData := Vector.ofFn fun i : Fin 10 => some f[i.val] }

/-- A buffer armed for 10 with `p` zero bytes pushed. -/
def filled (p : Nat) : State :=
  { State.reset with
    fbPos := BitVec.ofNat 4 p
    fbCap := 10#4
    fbData := Vector.ofFn fun i : Fin 10 => if i.val < p then some 0x00#8 else none }

/-- The resynchronizer with `HR_CNT = n` and the cells it implies. -/
def inPacket (n : Nat) : State :=
  { State.reset with
    hrCnt := BitVec.ofNat 5 n
    hpData := Vector.ofFn fun i : Fin 18 => if i.val + 2 ≤ n then some 0x00#8 else none }

/-- The resynchronizer with `HR_SKIP = n`. -/
def skipping (n : Nat) : State := { State.reset with hrSkip := BitVec.ofNat 4 n }

/-! ### WellFormed: what each check refuses -/

theorem test_wf_accepts : Instr.wellFormed (.fbArm 0x0A#8) = true ∧ Instr.wellFormed (.rd 0x51#8) = true ∧
    Instr.wellFormed .kpParse = true := by decide
theorem test_wf_refuses_capacity : Instr.wellFormed (.fbArm 0x0B#8) = false := by decide
theorem test_wf_refuses_address : Instr.wellFormed (.rd 0x06#8) = false ∧ Instr.wellFormed (.rd 0x1A#8) = false ∧
    Instr.wellFormed (.rd 0x29#8) = false ∧ Instr.wellFormed (.rd 0x52#8) = false := by decide
theorem test_wf_refuses_words : assignedWord 0x001#12 = false ∧ assignedWord 0x1FF#12 = false ∧
    assignedWord 0x501#12 = false ∧ assignedWord 0x800#12 = false ∧ assignedWord 0xFFF#12 = false := by decide

/-! ### Decoding: words written bit by bit from R61 -/

theorem test_decode_nop : decode 0b000000000000#12 = .ok .nop := by decide
theorem test_decode_crcInit : decode 0b000100000000#12 = .ok .crcInit := by decide
theorem test_decode_crcUpd : decode 0b001010110110#12 = .ok (.crcUpd 0xB6#8) := by decide
theorem test_decode_fbArm : decode 0b001100001010#12 = .ok (.fbArm 0x0A#8) := by decide
theorem test_decode_fbPush : decode 0b010010010001#12 = .ok (.fbPush 0x91#8) := by decide
theorem test_decode_kpParse : decode 0b010100000000#12 = .ok .kpParse := by decide
theorem test_decode_hrByte : decode 0b011010011011#12 = .ok (.hrByte 0x9B#8) := by decide
theorem test_decode_rd : decode 0b011101010001#12 = .ok (.rd 0x51#8) := by decide
theorem test_decode_reserved : decode 0b000011111111#12 = .error .nonzeroArg ∧
    decode 0b100000000000#12 = .error .unassignedOp := by decide
theorem test_decodeTableWord : decodeTableWord 12 0x30A = some (.fbArm 0x0A#8) ∧
    decodeTableWord 16 0x703 = some (.rd 0x03#8) ∧ decodeTableWord 16 0x1703 = none := by decide

/-! ### Meanings -/

theorem test_crc_table : crc8Byte 0x00#8 0x80#8 = 0x89#8 ∧ crc8Byte 0xA5#8 0x5A#8 = 0xF3#8 ∧
    crc8Byte 0x97#8 0x32#8 = 0x72#8 := by decide
theorem test_crc_check_value :
    crc8 [0x31, 0x32, 0x33, 0x34, 0x35, 0x36, 0x37, 0x38, 0x39] = 0xF4#8 ∧
    crc8 [0x01, 0x02, 0x03, 0x04, 0x05, 0x06, 0x07, 0x08, 0x09] = 0x85#8 ∧
    crc8 (List.replicate 9 0xFF#8) = 0xD8#8 := by decide +kernel
theorem test_crcInit_example : after (exec .crcInit (State.reset.setCrcAcc 0xF4#8)) (fun t =>
    t.crcAcc == 0x00#8 && rspWord t == some 0x000#12) = true := by decide
theorem test_crcUpd_example : after (exec (.crcUpd 0x31#8) State.reset) (fun t =>
    t.crcAcc == 0x97#8 && rspWord t == some 0x097#12) = true := by decide
theorem test_fbArm_keeps_cells : after (exec (.fbArm 0x0A#8) (ready frameA)) (fun t =>
    t.fbPos == 0#4 && t.fbCap == 10#4 && decide (t.fbData = (ready frameA).fbData) && rspWord t == some 0x000#12) = true := by decide
theorem test_fbArm_eleven : after (exec (.fbArm 0x0B#8) (ready frameA)) (fun t =>
    t.fbPos == 10#4 && rspWord t == some 0x200#12) = true := by decide
theorem test_fbPush_first : after (exec (.fbPush 0x19#8) (filled 0)) (fun t =>
    t.fbPos == 1#4 && t.fbData[0] == some 0x19#8 && t.fbData[1] == none && rspWord t == some 0x001#12) = true := by decide
theorem test_fbPush_dropped : after (exec (.fbPush 0xEE#8) (ready frameA)) (fun t =>
    decide (t.fbData = (ready frameA).fbData) && rspWord t == some 0x30A#12) = true := by decide
theorem test_kpParse_good : after (exec .kpParse (ready frameA)) (fun t =>
    rspWord t == some 0x067#12 && kTemp t == some 0x19#8 && kVolt t == some 0x0690#16 && kRpm t == some 0x0ABC#16) =
    true := by decide +kernel
theorem test_kpParse_bad : after (exec .kpParse (ready frameBad)) (fun t =>
    rspWord t == some 0x405#12 && decide (t.kFrame = State.reset.kFrame)) = true ∧
    answer (exec .kpParse (filled 7)) = some ⟨.kpNotReady, 0x07#8⟩ := by decide +kernel
theorem test_hrByte_collision : after (exec (.hrByte 0x9B#8) (inPacket 1)) (fun t =>
    t.hrCnt == 0#5 && t.hrSkip == 11#4 && t.hpData[0] == none && rspWord t == some 0x90B#12) = true := by decide
theorem test_hrByte_eighteenth : after (exec (.hrByte 0x30#8) (inPacket 18)) (fun t =>
    t.hrCnt == 0#5 && t.hpData[17] == some 0x30#8 && rspWord t == some 0xB00#12) = true ∧
    answer (exec (.hrByte 0x9B#8) (inPacket 7)) = some ⟨.hrStored, 0x08#8⟩ := by decide
theorem test_rd_control : (exec (.rd 0x03#8) State.reset |> answer) = some ⟨.ok, 0x01#8⟩ ∧
    answer (exec (.rd 0x14#8) (ready frameA)) = some ⟨.ok, 0xD2#8⟩ ∧
    answer (exec (.rd 0x51#8) (inPacket 18)) ≠ some ⟨.errBadArg, 0x00#8⟩ := by
  refine ⟨by decide, by decide, fun h => ?_⟩
  cases h
theorem test_rd_unmapped : answer (exec (.rd 0x06#8) State.reset) = some ⟨.errBadArg, 0x00#8⟩ ∧
    answer (exec (.rd 0x52#8) State.reset) = some ⟨.errBadArg, 0x00#8⟩ := by decide
theorem test_nop : after (exec .nop (ready frameA)) (fun t => rspWord t == some 0x000#12 && t.fbPos == 10#4) = true := by
  decide

/-! ### The step and the port -/

theorem test_step_reserved : after (step ((ready frameA).withFetchWord 16 0x501)) (fun t =>
    rspWord t == some 0x100#12 && t.fbPos == 10#4 && t.port == []) = true := by decide
theorem test_step_placed_word : after (step (State.reset.withFetchWord 16 0x231)) (fun t =>
    rspWord t == some 0x097#12 && t.crcAcc == 0x97#8) = true := by decide
theorem test_step_reset_ignores_command : after (step ((ready frameA).setPort [⟨true, true, 0x231#12⟩, PortIn.idle]))
    (fun t => t == State.reset.setPort [PortIn.idle]) = true := by decide
theorem test_step_idle : after (step (ready frameA)) (fun t => t == ready frameA) = true := by decide

/-! ### Text, pseudo-commands, signedness (R69, R128) -/

theorem test_text : commandText (.crcUpd 0x31#8) = "CRC_UPD 0x31" ∧ commandText .nop = "NOP" ∧
    responseText ⟨.ok, 0x97#8⟩ = "OK:0x97" ∧ hexWord 0x69B#12 = "69B" := by decide
theorem test_pseudo : pseudoIsComplete.map encode = [0x703#12] ∧ pseudoBytesFilled.map encode = [0x701#12] ∧
    pseudoKissArm.map encode = [0x30A#12] ∧ pseudoRd16 0x21#8 = [.rd 0x21#8, .rd 0x22#8] ∧
    pseudoHrPkt.head? = some (.rd 0x40#8) ∧ pseudoHrPkt.getLast? = some (.rd 0x51#8) := by decide
theorem test_signedness : fieldValue .zext 0xF6#8 = 246 ∧ fieldValue .sext 0xF6#8 = -10 ∧
    fieldValue .sext 0x8000#16 = -32768 := by decide

/-! ### Witnesses: a state and operands that meet the hypotheses of each statement, clause by clause -/

theorem witness_DecodedWords : decode 0x000#12 = .ok .nop ∧ decode 0x2FF#12 = .ok (.crcUpd 0xFF#8) ∧
    decode 0x7FF#12 = .ok (.rd 0xFF#8) := by decide
theorem witness_DecoderFollowsTheEncodingTable : ∃ r ∈ encodingTable, r.matchesWord 0x231#12 = true := by decide
theorem witness_ReservedWordsAnswerIllegalOp : decode 0x001#12 = .error .nonzeroArg ∧
    decode 0x1FF#12 = .error .nonzeroArg ∧ decode 0x501#12 = .error .nonzeroArg ∧
    decode 0x800#12 = .error .unassignedOp ∧ decode 0xFFF#12 = .error .unassignedOp := by decide
theorem witness_StatusesOfEachCommand :
    exec .nop State.reset = .next { State.reset with rsp := some ⟨.ok, 0x00#8⟩ } := by rfl
theorem witness_StepRunsTheDecodedCommand : (PortIn.command 0x30A#12).rst = false ∧
    (PortIn.command 0x30A#12).cmdValid = true ∧ decode (PortIn.command 0x30A#12).cmd = .ok (.fbArm 0x0A#8) := by decide
theorem witness_PlacedWordIsRunNext : decodeTableWord 12 0x4EE = some (.fbPush 0xEE#8) := by decide
theorem witness_ResetCycleResetsEverything : PortIn.reset.rst = true ∧
    (⟨true, true, 0x30A#12⟩ : PortIn).rst = true := by decide
theorem witness_StepKeepsTheInvariant : State.reset.Inv ∧ (ready frameA).Inv ∧ (inPacket 18).Inv ∧ (skipping 11).Inv ∧
    after (step (ready frameA)) (fun t => t == ready frameA) = true := by decide
theorem witness_ErrorOutcomesChangeNoState :
    after (step (State.reset.setPort [PortIn.command 0x800#12])) (fun t => t.rsp == some ⟨.errIllegalOp, 0x00#8⟩) = true ∧
    after (step (State.reset.setPort [PortIn.command 0x30B#12])) (fun t => t.rsp == some ⟨.errBadArg, 0x00#8⟩) = true ∧
    after (step (State.reset.setPort [PortIn.command 0x4AA#12])) (fun t => t.rsp == some ⟨.fbDropped, 0x00#8⟩) = true ∧
    after (step ((ready frameBad).setPort [PortIn.command 0x500#12]))
      (fun t => t.rsp == some ⟨.kpCrcFail, 0x05#8⟩) = true ∧
    after (step (State.reset.setPort [PortIn.command 0x500#12])) (fun t => t.rsp == some ⟨.kpNotReady, 0x00#8⟩) = true ∧
    after (step ((inPacket 1).setPort [PortIn.command 0x69B#12]))
      (fun t => t.rsp == some ⟨.hrCollision, 0x0B#8⟩) = true := by decide +kernel
theorem witness_RegistersAreWrittenByTheirOwners :
    after (exec (.crcUpd 0x31#8) State.reset) (fun t => t.crcAcc != 0x00#8) = true ∧
    after (exec (.fbArm 0x0A#8) (filled 3)) (fun t => t.fbPos != 3#4) = true ∧
    after (exec (.fbArm 0x0A#8) State.reset) (fun t => t.fbCap != 0#4) = true ∧
    after (exec (.fbPush 0x19#8) (filled 0)) (fun t => decide (t.fbData ≠ (filled 0).fbData)) = true ∧
    after (exec .kpParse (ready frameA)) (fun t => decide (t.kFrame ≠ State.reset.kFrame)) = true ∧
    after (exec (.hrByte 0x9B#8) State.reset) (fun t => t.hrCnt != 0#5) = true := by decide +kernel
theorem witness_SubBlocksDoNotDisturbEachOther : (ready frameA).Inv ∧ subBlock .kpParse ≠ subBlock (.hrByte 0x9B#8) ∧
    after (execAll [.kpParse, .hrByte 0x9B#8] (ready frameA)) (fun _ => true) = true ∧
    after (execAll [.hrByte 0x9B#8, .kpParse] (ready frameA)) (fun _ => true) = true := by decide +kernel
theorem witness_CrcDetectsEverySingleBitError : 1 < [0x31#8, 0x32#8].length ∧ 7 < 8 := by decide
theorem witness_NonzeroArg : (0x01#8 : Byte) ≠ 0x00#8 := by decide
theorem witness_GeneratorAgreesWithTheFunction :
    Instr.crcInit ∉ [Instr.crcUpd 0x31#8, .fbPush 0x19#8, .crcUpd 0x32#8] := by decide
theorem witness_FbArmSetsPositionAndCapacity : (0x0A#8 : Byte).toNat ≤ 10 ∧ 10 < (0x0B#8 : Byte).toNat ∧
    (0x09#8 : Byte).toNat < 10 ∧ (filled 3).fbCap = (0x0A#8 : Byte).extractLsb' 0 4 ∧
    after (exec (.fbArm 0x00#8) State.reset) fbComplete = true ∧
    ({ State.reset with fbCap := 9#4 } : State).fbCap = (0x09#8 : Byte).extractLsb' 0 4 := by decide
theorem witness_FbPushStoresOrDrops : (ready frameA).fbPos = (ready frameA).fbCap ∧ (filled 9).fbPos.toNat < 10 ∧
    (filled 9).fbPos ≠ (filled 9).fbCap ∧ after (exec (.fbPush 0x67#8) (filled 9)) fbComplete = true := by decide
theorem witness_BufferHoldsPushedBytesInOrder : (0x0A#8 : Byte).toNat ≤ 10 ∧
    (∀ i ∈ [Instr.fbPush 0x19#8, .rd 0x01#8, .fbPush 0x06#8], isArm i = false) := by decide
theorem witness_NineBytes : (frameA.toList.take 9).length = 9 := by decide
theorem witness_KpParseValidatesAndLatches :
    ¬ ((filled 9).fbCap = 10#4 ∧ (filled 9).fbPos = 10#4) ∧
    (ready frameA).fbCap = 10#4 ∧ (ready frameA).fbPos = 10#4 ∧ (ready frameA).fbData = frameA.map some ∧
    crc8 (frameA.toList.take 9) = frameA[9] ∧ crc8 (frameBad.toList.take 9) ≠ frameBad[9] := by decide +kernel
theorem witness_KpParseRepeats : (ready frameA).Inv ∧ (ready frameA).fbCap = 10#4 ∧ (ready frameA).fbPos = 10#4 ∧
    after (exec .kpParse (ready frameA)) (fun t => t.rsp == some ⟨.ok, 0x67#8⟩) = true ∧
    after (exec .kpParse (ready frameBad)) (fun t => t.rsp == some ⟨.kpCrcFail, 0x05#8⟩) = true := by decide +kernel
theorem witness_ResyncStateGraph :
    (∀ p ∈ [((0 : Nat), (0 : Nat)), (0, 18), (1, 0), (11, 0)], (p.1 = 0 ∧ p.2 ≤ 18) ∨ (1 ≤ p.1 ∧ p.1 ≤ 11 ∧ p.2 = 0)) := by decide
theorem witness_SignednessReadsTheSameBits : (0x7F#8 : Byte).msb = false ∧ (0x80#8 : Byte).msb = true := by decide
theorem witness_HrByteSkips : 0 < (skipping 11).hrSkip.toNat ∧ 0 < (skipping 1).hrSkip.toNat ∧
    (inPacket 1).hrSkip = 0#4 ∧ (inPacket 1).hrCnt = 1#5 := by decide
theorem witness_Idle : State.reset.hrSkip = 0#4 ∧ State.reset.hrCnt = 0#5 ∧ (0x11#8 : Byte) ≠ 0x9B#8 := by decide
theorem witness_HrByteStores :
    (1 ≤ (inPacket 1).hrCnt.toNat ∧ (inPacket 1).hrCnt.toNat ≤ 17) ∧ ((inPacket 1).hrCnt = 1#5 → (0x00#8 : Byte) ≠ 0x9B#8) ∧
    (1 ≤ (inPacket 17).hrCnt.toNat ∧ (inPacket 17).hrCnt.toNat ≤ 17) ∧
    ((inPacket 17).hrCnt = 1#5 → (0x9B#8 : Byte) ≠ 0x9B#8) ∧ (inPacket 17).hrSkip = 0#4 := by decide
theorem witness_HrByteCompletesThePacket : (inPacket 18).hrSkip = 0#4 ∧ (inPacket 18).hrCnt = 18#5 := by decide
theorem witness_SentinelAndEighteenBytesMakeAPacket : (Vector.replicate 18 0x00#8)[0] ≠ 0x9B#8 := by decide
theorem witness_CollisionEmitsNoFalsePacket :
    ∀ k : Fin 6, k ≤ 5 → (Vector.replicate 16 0x11#8)[10 + k.val] ≠ 0x9B#8 := by decide
theorem witness_ReadyPacketIsStable :
    after (exec (.hrByte 0x00#8) (inPacket 1)) (fun t => decide (t.hpData ≠ (inPacket 1).hpData)) = true ∧
    [Instr.nop, .hrByte 0x9B#8, .rd 0x40#8].countP isHrByte < 2 := by decide
theorem witness_RdAnswersTheMappedByte : (ready frameA).fbData[9] = some 0x67#8 ∧
    after (exec .kpParse (ready frameA)) (fun t => t.kFrame[8] == some 0xBC#8) = true ∧
    (inPacket 18).hpData[16] = some 0x00#8 := by decide +kernel
theorem witness_Unmapped :
    ∀ a ∈ [0x06#8, 0x0F#8, 0x1A#8, 0x1F#8, 0x29#8, 0x3F#8, 0x52#8, 0xFF#8], regAt a = none := by decide
theorem witness_RdOfAnUnwrittenCellIsFree : State.reset.fbData[9] = none ∧ State.reset.kFrame[8] = none ∧
    State.reset.hpData[17] = none := by decide
theorem witness_RegisterMapIsClosedAndWithoutAliases : regAt 0x51#8 = some (.hpData 17) ∧
    regAt 0x10#8 = some (.fbData 0) ∧ regAt 0x28#8 = some (.kFrame 8) := by decide
theorem witness_Frames :
    after (exec .crcInit (ready frameA)) (fun _ => true) = true ∧
    after (exec (.fbArm 0xFF#8) (ready frameA)) (fun _ => true) = true ∧
    after (exec (.fbPush 0x00#8) (filled 9)) (fun _ => true) = true ∧
    after (exec .kpParse (filled 9)) (fun t => t.rsp == some ⟨.kpNotReady, 0x09#8⟩) = true ∧
    after (exec (.hrByte 0x00#8) (inPacket 18)) (fun _ => true) = true := by decide

end Sys2Proof.Tests
end

/-! The scope statements (00_scope.md R5, R6): what one clock edge does, an equation per kind of port cycle, and from
these that every word is answered and that presented commands run in order. -/

namespace Sys2Proof.Machine

/-! ### The decoder on encoded commands -/

@[simp] theorem opField_encode (i : Instr) : opField (encode i) = i.op := opField_append i.op i.arg

@[simp] theorem argField_encode (i : Instr) : argField (encode i) = i.arg := argField_append i.op i.arg

/-- The decoder undoes the encoder: it sees the command's own `op` and `arg` (R61, R62). -/
@[simp] theorem decode_encode (i : Instr) : decode (encode i) = .ok i := by
  rw [decode, opField_encode, argField_encode]
  cases i <;> rfl

/-! ### The port -/

@[simp] theorem State.setPort_setPort (s : State) (p q : List PortIn) : (s.setPort p).setPort q = s.setPort q := rfl

theorem State.setPort_of_port_eq {s : State} {p : List PortIn} (h : s.port = p) : s.setPort p = s := by
  subst h; rfl

theorem presented_cons (i : Instr) (is : List Instr) :
    presented (i :: is) = PortIn.command (encode i) :: presented is := rfl

/-! ### One clock edge, by the kind of the coming cycle -/

section
variable {s : State}

theorem step_of_rst (hr : (nextCycle s).rst = true) : step s = .next (resetEdge (takeCycle s)) := by
  simp [step, hr]

theorem step_of_idle (hr : (nextCycle s).rst = false) (hv : (nextCycle s).cmdValid = false) :
    step s = .next (idleEdge (takeCycle s)) := by
  simp [step, hr, hv]

theorem step_of_decode_ok {i : Instr} (hr : (nextCycle s).rst = false) (hv : (nextCycle s).cmdValid = true)
    (hd : decode (nextCycle s).cmd = .ok i) : step s = exec i (takeCycle s) := by
  simp [step, hr, hv, hd]

theorem step_of_decode_error {e : Reserved} (hr : (nextCycle s).rst = false) (hv : (nextCycle s).cmdValid = true)
    (hd : decode (nextCycle s).cmd = .error e) : step s = rejectWord (takeCycle s) := by
  simp [step, hr, hv, hd]

/-- A cycle that presents a word, assigned or not, is answered, and is the only cycle taken off the port (R6). -/
theorem step_answers_command (hr : (nextCycle s).rst = false) (hv : (nextCycle s).cmdValid = true) :
    ∃ t r, step s = .next t ∧ t.rsp = some r ∧ t.port = s.port.tail := by
  cases hd : decode (nextCycle s).cmd with
  | ok i =>
    rw [step_of_decode_ok hr hv hd]
    exact exec_next i (takeCycle s)
  | error e =>
    rw [step_of_decode_error hr hv hd]
    exact ⟨_, _, rfl, rfl, rfl⟩

end

/-- HFT never stops: every clock edge leads to a next state (R6, R180). -/
theorem step_completes (s : State) : ∃ t, step s = .next t := by
  cases hr : (nextCycle s).rst with
  | true => exact ⟨_, step_of_rst hr⟩
  | false =>
    cases hv : (nextCycle s).cmdValid with
    | false => exact ⟨_, step_of_idle hr hv⟩
    | true =>
      obtain ⟨t, -, ht, -, -⟩ := step_answers_command hr hv
      exact ⟨t, ht⟩

/-- Presenting the encoding of a command runs that command. -/
theorem step_presents_encode (i : Instr) (s : State) (rest : List PortIn) :
    step (s.setPort (PortIn.command (encode i) :: rest)) = exec i (s.setPort rest) :=
  step_of_decode_ok rfl rfl (decode_encode i)

/-! ### The statements -/

/-- Settles O8: the equation of the step for a cycle whose word decodes to a command. -/
theorem stepRunsTheDecodedCommand : Obligations.StepRunsTheDecodedCommand := by
  intro s c rest i hr hv hd
  exact step_of_decode_ok (s := s.setPort (c :: rest)) hr hv hd

/-- Settles O11: both a cycle without a command and an empty port are idle cycles. -/
theorem noCommandLeavesTheStateUnchanged : Obligations.NoCommandLeavesTheStateUnchanged := by
  intro s w rest
  constructor
  · exact step_of_idle (s := s.setPort (⟨false, false, w⟩ :: rest)) rfl rfl
  · exact step_of_idle (s := s.setPort []) rfl rfl

/-- Settles O10: by the kind of the coming cycle, and by whether the presented word is assigned. -/
theorem everyCommandWordIsAnswered : Obligations.EveryCommandWordIsAnswered := by
  refine ⟨step_completes, ?_⟩
  intro s w rest
  exact step_answers_command (s := s.setPort (PortIn.command w :: rest)) rfl rfl

/-- Settles O14, by induction on the commands. The machine runs the first one with the others still pending on the port,
`execAll` with only `rest` there; `exec_setPort` says that a meaning does not see the difference. -/
theorem presentedCommandsRunInOrder : Obligations.PresentedCommandsRunInOrder := by
  intro is
  induction is with
  | nil => intro s rest; rfl
  | cons i is ih =>
    intro s rest
    obtain ⟨t, -, ht, -, hport⟩ := exec_next i (s.setPort rest)
    have hstep : step (s.setPort (presented (i :: is) ++ rest)) = .next (t.setPort (presented is ++ rest)) := by
      rw [presented_cons, List.cons_append, step_presents_encode]
      exact exec_setPort (s := s.setPort rest) (presented is ++ rest) ht
    have hrest : t.setPort rest = t := State.setPort_of_port_eq hport
    rw [List.length_cons, core_run_succ hstep, ih t rest, hrest, execAll_cons ht]

end Sys2Proof.Machine

/-! The registers of 10_state.md group by group (R1, R33): which registers a command of each group can write, and that what
it writes is decided by its own group's registers. From these follow the frame of the generator's commands, the invariant
of R31 and the independence of the groups. -/

namespace Sys2Proof.Machine

/-! ### The registers of one group -/

/-- The registers that the commands of a group write (10_state.md section 9, "written by"), everything else at its reset
value, so that equality of two parts is equality of those registers. -/
def SubBlock.part : SubBlock → State → State
  | .generator, s => State.reset.setCrcAcc s.crcAcc
  | .bufferAndParser, s =>
    (((State.reset.setFbPos s.fbPos).setFbCap s.fbCap).setFbData s.fbData).setKFrame s.kFrame
  | .resynchronizer, s => ((State.reset.setHrCnt s.hrCnt).setHrSkip s.hrSkip).setHpData s.hpData
  | .system, _ => State.reset

section
variable {s t : State}

theorem SubBlock.part_generator_eq_iff :
    SubBlock.generator.part s = SubBlock.generator.part t ↔ s.crcAcc = t.crcAcc := by
  simp [SubBlock.part, State.setCrcAcc]

theorem SubBlock.part_bufferAndParser_eq_iff :
    SubBlock.bufferAndParser.part s = SubBlock.bufferAndParser.part t ↔
      s.fbPos = t.fbPos ∧ s.fbCap = t.fbCap ∧ s.fbData = t.fbData ∧ s.kFrame = t.kFrame := by
  simp [SubBlock.part, State.setFbPos, State.setFbCap, State.setFbData, State.setKFrame]

theorem SubBlock.part_resynchronizer_eq_iff :
    SubBlock.resynchronizer.part s = SubBlock.resynchronizer.part t ↔
      s.hrCnt = t.hrCnt ∧ s.hrSkip = t.hrSkip ∧ s.hpData = t.hpData := by
  simp [SubBlock.part, State.setHrCnt, State.setHrSkip, State.setHpData]

/-- The groups' registers are all the registers. -/
theorem State.sameRegisters_of_part_eq (h : ∀ g : SubBlock, g.part s = g.part t) : s.SameRegisters t := by
  have hcrc := SubBlock.part_generator_eq_iff.mp (h .generator)
  obtain ⟨hpos, hcap, hdata, hframe⟩ := SubBlock.part_bufferAndParser_eq_iff.mp (h .bufferAndParser)
  obtain ⟨hcnt, hskip, hpacket⟩ := SubBlock.part_resynchronizer_eq_iff.mp (h .resynchronizer)
  exact ⟨hcrc, hpos, hcap, hdata, hframe, hcnt, hskip, hpacket⟩

end

/-! ### What a command of each group can write -/

section
variable {i : Instr} {s t : State}

theorem exec_generator_writes (hi : subBlock i = .generator) (h : exec i s = .next t) :
    t = { s with crcAcc := t.crcAcc, rsp := t.rsp } := by
  cases i with
  | crcInit => rw [execCrcInit_cases h]; rfl
  | crcUpd b => rw [execCrcUpd_cases h]; rfl
  | _ => cases hi

theorem exec_bufferAndParser_writes (hi : subBlock i = .bufferAndParser) (h : exec i s = .next t) :
    t = { s with
      fbPos := t.fbPos, fbCap := t.fbCap, fbData := t.fbData, kFrame := t.kFrame, draws := t.draws, rsp := t.rsp } := by
  cases i with
  | fbArm n => obtain ⟨-, rfl⟩ | ⟨-, rfl⟩ := execFbArm_cases h <;> rfl
  | fbPush b => obtain ⟨-, rfl⟩ | ⟨-, rfl⟩ := execFbPush_cases h <;> rfl
  | kpParse => obtain ⟨-, rfl⟩ | ⟨-, -, rfl⟩ | ⟨-, -, rfl⟩ := execKpParse_cases h <;> rfl
  | _ => cases hi

theorem exec_resynchronizer_writes (hi : subBlock i = .resynchronizer) (h : exec i s = .next t) :
    t = { s with hrCnt := t.hrCnt, hrSkip := t.hrSkip, hpData := t.hpData, rsp := t.rsp } := by
  cases i with
  | hrByte b =>
    obtain ⟨-, rfl⟩ | ⟨-, -, -, rfl⟩ | ⟨-, -, -, rfl⟩ | ⟨-, -, -, -, rfl⟩ | ⟨-, -, rfl⟩ | ⟨-, -, -, rfl⟩ :=
      execHrByte_cases h <;> rfl
  | _ => cases hi

theorem exec_system_writes (hi : subBlock i = .system) (h : exec i s = .next t) :
    t = { s with draws := t.draws, rsp := t.rsp } := by
  cases i with
  | nop => rw [execNop_cases h]; rfl
  | rd a => obtain ⟨r, -, rfl⟩ | ⟨-, rfl⟩ := execRd_cases h <;> rfl
  | _ => cases hi

/-- A command leaves the registers of the other groups as they are. -/
theorem exec_keeps_part {g : SubBlock} (hg : g ≠ subBlock i) (h : exec i s = .next t) : g.part t = g.part s := by
  cases hi : subBlock i with
  | generator =>
    rw [exec_generator_writes hi h]
    cases g with
    | generator => exact absurd hi.symm hg
    | _ => rfl
  | bufferAndParser =>
    rw [exec_bufferAndParser_writes hi h]
    cases g with
    | bufferAndParser => exact absurd hi.symm hg
    | _ => rfl
  | resynchronizer =>
    rw [exec_resynchronizer_writes hi h]
    cases g with
    | resynchronizer => exact absurd hi.symm hg
    | _ => rfl
  | system =>
    rw [exec_system_writes hi h]
    cases g <;> rfl

end

/-! ### The invariant, group by group -/

/-- The clauses of the invariant about the frame buffer and the parser: R31 (a), (e) and R27. -/
def State.BufferInv (s : State) : Prop := s.FbInRange ∧ s.FbFilled ∧ s.KTogether

/-- The clauses of the invariant about the resynchronizer: R31 (b) to (d), (f). -/
def State.ResyncInv (s : State) : Prop := s.HrInRange ∧ s.HpFilled

theorem State.inv_iff (s : State) : s.Inv ↔ s.BufferInv ∧ s.ResyncInv := by
  constructor
  · rintro ⟨hfb, hhr, hfill, hpacket, hframe⟩
    exact ⟨⟨hfb, hfill, hframe⟩, hhr, hpacket⟩
  · rintro ⟨⟨hfb, hfill, hframe⟩, hhr, hpacket⟩
    exact ⟨hfb, hhr, hfill, hpacket, hframe⟩

section
variable {s t : State} {b n : Byte}

theorem State.BufferInv.of_part_eq
    (h : SubBlock.bufferAndParser.part t = SubBlock.bufferAndParser.part s) (hs : s.BufferInv) : t.BufferInv := by
  change (SubBlock.bufferAndParser.part t).BufferInv
  rw [h]
  exact hs

theorem State.ResyncInv.of_part_eq
    (h : SubBlock.resynchronizer.part t = SubBlock.resynchronizer.part s) (hs : s.ResyncInv) : t.ResyncInv := by
  change (SubBlock.resynchronizer.part t).ResyncInv
  rw [h]
  exact hs

/-- An arm empties the buffer, so no cell needs to be written. -/
theorem execFbArm_keeps_bufferInv (hs : s.BufferInv) (h : execFbArm n s = .next t) : t.BufferInv := by
  obtain ⟨hn, rfl⟩ | ⟨-, rfl⟩ := execFbArm_cases h
  · obtain ⟨-, -, hframe⟩ := hs
    refine ⟨⟨Nat.zero_le _, ?_⟩, fun k hk => absurd hk (Nat.not_lt_zero _), hframe⟩
    exact (toNat_capacity hn).trans_le hn
  · exact hs

/-- A push that is stored moves `FB_POS`, which is below the capacity, past the one cell it writes. -/
theorem execFbPush_keeps_bufferInv (hs : s.BufferInv) (h : execFbPush b s = .next t) : t.BufferInv := by
  obtain ⟨-, rfl⟩ | ⟨hne, rfl⟩ := execFbPush_cases h
  · exact hs
  obtain ⟨⟨hle, hcap⟩, hfill, hframe⟩ := hs
  have hlt : s.fbPos.toNat < s.fbCap.toNat := Nat.lt_of_le_of_ne hle (hne ∘ BitVec.eq_of_toNat_eq)
  have hpos : (s.fbPos + 1#4).toNat = s.fbPos.toNat + 1 := by bv_omega
  refine ⟨⟨hpos.trans_le hlt, hcap⟩, fun k hk => ?_, hframe⟩
  have hk : k.val < s.fbPos.toNat + 1 := hpos ▸ hk
  change (storeFbData s.fbPos.toNat b s).fbData[k.val].isSome = true
  rw [storeFbData_getElem]
  split
  · rfl
  · exact hfill k (by omega)

/-- A latch writes the nine cells from a full buffer, so all of them hold a byte. -/
theorem execKpParse_keeps_bufferInv (hs : s.BufferInv) (h : execKpParse s = .next t) : t.BufferInv := by
  obtain ⟨-, rfl⟩ | ⟨hr, -, rfl⟩ | ⟨-, -, rfl⟩ := execKpParse_cases h
  · exact hs
  · obtain ⟨hfb, hfill, -⟩ := hs
    obtain ⟨-, hpos⟩ := (frameReady_iff s).mp hr
    refine ⟨hfb, hfill, .inr fun k => ?_⟩
    change (latchFrame (s.setDraws _)).kFrame[k.val].isSome = true
    rw [latchFrame_getElem]
    exact hfill ⟨k.val, by omega⟩ (by rw [hpos]; exact Nat.lt_succ_of_lt k.isLt)
  · exact hs

/-- A stored byte goes to cell `HR_CNT - 1`, the one cell more that the new count covers. -/
theorem execHrByte_keeps_resyncInv (hs : s.ResyncInv) (h : execHrByte b s = .next t) : t.ResyncInv := by
  obtain ⟨⟨hcnt, hskip, hzero⟩, hfill⟩ := hs
  obtain ⟨hpos, rfl⟩ | ⟨h0, -, -, rfl⟩ | ⟨-, -, -, rfl⟩ | ⟨h0, h1, h18, -, rfl⟩ | ⟨-, -, rfl⟩ | ⟨-, -, -, rfl⟩ :=
    execHrByte_cases h
  · have hdec : (s.hrSkip - 1#4).toNat ≤ 11 := by bv_omega
    exact ⟨⟨hcnt, hdec, fun _ => hzero hpos⟩, hfill⟩
  · exact ⟨⟨by simp, hskip, fun hp => absurd hp (by simp [h0])⟩, fun k hk => absurd hk (by simp)⟩
  · exact ⟨⟨by simp, by simp, fun _ => rfl⟩, fun k hk => absurd hk (by simp)⟩
  · have hlt : s.hrCnt.toNat < 18 := Nat.lt_of_le_of_ne hcnt fun hc => h18 (BitVec.eq_of_toNat_eq hc)
    have hnext : (s.hrCnt + 1#5).toNat = s.hrCnt.toNat + 1 := by bv_omega
    refine ⟨⟨hnext.trans_le hlt, hskip, fun hp => absurd hp (by simp [h0])⟩, fun k hk => ?_⟩
    have hk : k.val + 2 ≤ s.hrCnt.toNat + 1 := hnext ▸ hk
    change (storeHpData (s.hrCnt.toNat - 1) b s).hpData[k.val].isSome = true
    rw [storeHpData_getElem]
    split
    · rfl
    · exact hfill k (by omega)
  · exact ⟨⟨by simp, hskip, fun _ => rfl⟩, fun k hk => absurd hk (by simp)⟩
  · exact ⟨⟨hcnt, hskip, hzero⟩, hfill⟩

end

section
variable {i : Instr} {s t : State}

theorem exec_keeps_bufferInv (hs : s.BufferInv) (h : exec i s = .next t) : t.BufferInv := by
  by_cases hi : .bufferAndParser = subBlock i
  · cases i with
    | fbArm n => exact execFbArm_keeps_bufferInv hs h
    | fbPush b => exact execFbPush_keeps_bufferInv hs h
    | kpParse => exact execKpParse_keeps_bufferInv hs h
    | _ => cases hi
  · exact hs.of_part_eq (exec_keeps_part hi h)

theorem exec_keeps_resyncInv (hs : s.ResyncInv) (h : exec i s = .next t) : t.ResyncInv := by
  by_cases hi : .resynchronizer = subBlock i
  · cases i with
    | hrByte b => exact execHrByte_keeps_resyncInv hs h
    | _ => cases hi
  · exact hs.of_part_eq (exec_keeps_part hi h)

theorem exec_keeps_inv (hs : s.Inv) (h : exec i s = .next t) : t.Inv := by
  obtain ⟨hbuffer, hresync⟩ := s.inv_iff.mp hs
  exact t.inv_iff.mpr ⟨exec_keeps_bufferInv hbuffer h, exec_keeps_resyncInv hresync h⟩

theorem reset_inv : State.reset.Inv := by
  decide

/-- Every clock edge keeps the invariant: a reset makes it, an edge without an assigned command writes no register. -/
theorem step_keeps_inv (hs : s.Inv) (h : step s = .next t) : t.Inv := by
  have htake : (takeCycle s).Inv := hs
  obtain ⟨-, rfl⟩ | ⟨-, -, rfl⟩ | ⟨e, -, rfl⟩ | ⟨i, -, hexec⟩ := step_cases h
  · exact reset_inv
  · exact htake
  · exact htake
  · exact exec_keeps_inv htake hexec

end

/-! ### What a command writes is decided by its own group's registers -/

section
variable {i : Instr} {s s' t t' : State} {b n : Byte}

theorem execCrcUpd_congr (hp : SubBlock.generator.part s = SubBlock.generator.part s')
    (h : execCrcUpd b s = .next t) (h' : execCrcUpd b s' = .next t') :
    SubBlock.generator.part t = SubBlock.generator.part t' := by
  have hcrc := SubBlock.part_generator_eq_iff.mp hp
  rw [SubBlock.part_generator_eq_iff, execCrcUpd_cases h, execCrcUpd_cases h']
  simp [hcrc]

theorem execFbArm_congr (hp : SubBlock.bufferAndParser.part s = SubBlock.bufferAndParser.part s')
    (h : execFbArm n s = .next t) (h' : execFbArm n s' = .next t') :
    SubBlock.bufferAndParser.part t = SubBlock.bufferAndParser.part t' := by
  rcases execFbArm_cases h with ⟨hn, rfl⟩ | ⟨hn, rfl⟩ <;> rcases execFbArm_cases h' with ⟨hn', rfl⟩ | ⟨hn', rfl⟩
  · obtain ⟨-, -, hdata, hframe⟩ := SubBlock.part_bufferAndParser_eq_iff.mp hp
    exact SubBlock.part_bufferAndParser_eq_iff.mpr ⟨rfl, rfl, hdata, hframe⟩
  · omega
  · omega
  · exact hp

theorem execFbPush_congr (hp : SubBlock.bufferAndParser.part s = SubBlock.bufferAndParser.part s')
    (h : execFbPush b s = .next t) (h' : execFbPush b s' = .next t') :
    SubBlock.bufferAndParser.part t = SubBlock.bufferAndParser.part t' := by
  obtain ⟨hpos, hcap, hdata, hframe⟩ := SubBlock.part_bufferAndParser_eq_iff.mp hp
  rcases execFbPush_cases h with ⟨hc, rfl⟩ | ⟨hc, rfl⟩ <;> rcases execFbPush_cases h' with ⟨hc', rfl⟩ | ⟨hc', rfl⟩
  · exact hp
  · exact absurd (hpos ▸ hcap ▸ hc) hc'
  · exact absurd (hpos ▸ hcap ▸ hc') hc
  · exact SubBlock.part_bufferAndParser_eq_iff.mpr (by simp [hpos, hcap, hdata, hframe])

/-- A full buffer has its ten cells written, so the bytes that a parse sees do not depend on the free bytes drawn. -/
theorem frameRead_bytes_congr (hfill : s.FbFilled) (hr : frameReady s = true) (hdata : s.fbData = s'.fbData) :
    (frameRead s).1 = (frameRead s').1 := by
  obtain ⟨-, hpos⟩ := (frameReady_iff s).mp hr
  have hwritten : ∀ c ∈ s.fbData.toList, c.isSome = true := by
    intro c hc
    obtain ⟨k, hk, rfl⟩ := Vector.getElem_of_mem (Vector.mem_toList_iff.mp hc)
    exact hfill ⟨k, hk⟩ (by rw [hpos]; exact hk)
  obtain ⟨bs, hbs⟩ := exists_bytes_of_written hwritten
  rw [frameRead, frameRead, ← hdata, hbs, readCells_of_written, readCells_of_written]

/-- A parse that finds a valid frame latches it. -/
theorem execKpParse_latches (hr : frameReady s = true) (hv : frameValid (frameRead s).1 = true)
    (h : execKpParse s = .next t) : SubBlock.bufferAndParser.part t = SubBlock.bufferAndParser.part (latchFrame s) := by
  obtain ⟨hr', -⟩ | ⟨-, -, rfl⟩ | ⟨-, hv', -⟩ := execKpParse_cases h
  · exact absurd hr (by simp [hr'])
  · rfl
  · exact absurd hv (by simp [hv'])

/-- A parse that finds no valid frame writes no register. -/
theorem execKpParse_keeps_part (hno : ¬ (frameReady s = true ∧ frameValid (frameRead s).1 = true))
    (h : execKpParse s = .next t) : SubBlock.bufferAndParser.part t = SubBlock.bufferAndParser.part s := by
  obtain ⟨-, rfl⟩ | ⟨hr, hv, -⟩ | ⟨-, -, rfl⟩ := execKpParse_cases h
  · rfl
  · exact absurd ⟨hr, hv⟩ hno
  · rfl

theorem execKpParse_congr (hfill : s.FbFilled)
    (hp : SubBlock.bufferAndParser.part s = SubBlock.bufferAndParser.part s')
    (h : execKpParse s = .next t) (h' : execKpParse s' = .next t') :
    SubBlock.bufferAndParser.part t = SubBlock.bufferAndParser.part t' := by
  obtain ⟨hpos, hcap, hdata, -⟩ := SubBlock.part_bufferAndParser_eq_iff.mp hp
  have hready : frameReady s' = frameReady s := by rw [frameReady, frameReady, hpos, hcap]
  by_cases hr : frameReady s = true
  · have hbytes := frameRead_bytes_congr hfill hr hdata
    by_cases hv : frameValid (frameRead s).1 = true
    · rw [execKpParse_latches hr hv h, execKpParse_latches (hready.trans hr) (hbytes ▸ hv) h']
      exact SubBlock.part_bufferAndParser_eq_iff.mpr ⟨hpos, hcap, hdata, by rw [latchFrame, latchFrame, hdata]; rfl⟩
    · rw [execKpParse_keeps_part (fun hc => hv hc.2) h, execKpParse_keeps_part (fun hc => hv (hbytes ▸ hc.2)) h', hp]
  · rw [execKpParse_keeps_part (fun hc => hr hc.1) h, execKpParse_keeps_part (fun hc => hr (hready ▸ hc.1)) h', hp]

theorem execHrByte_congr (hp : SubBlock.resynchronizer.part s = SubBlock.resynchronizer.part s')
    (h : execHrByte b s = .next t) (h' : execHrByte b s' = .next t') :
    SubBlock.resynchronizer.part t = SubBlock.resynchronizer.part t' := by
  obtain ⟨hcnt, hskip, hdata⟩ := SubBlock.part_resynchronizer_eq_iff.mp hp
  unfold execHrByte at h h'
  rw [← hcnt, ← hskip] at h'  -- both runs now make the same tests
  split_ifs at h h' <;> cases h <;> cases h' <;>
    exact SubBlock.part_resynchronizer_eq_iff.mpr (by simp [hcnt, hskip, hdata])

/-- From two states that agree on the registers of a group, the first of which meets the invariant, a command leads to two
states that agree on them. -/
theorem exec_congr_part {g : SubBlock} (hs : s.Inv) (hp : g.part s = g.part s')
    (h : exec i s = .next t) (h' : exec i s' = .next t') : g.part t = g.part t' := by
  by_cases hg : g = subBlock i
  · subst hg
    obtain ⟨-, -, hfill, -, -⟩ := hs
    cases i with
    | nop => rfl
    | crcInit => rw [execCrcInit_cases h, execCrcInit_cases h']; rfl
    | crcUpd b => exact execCrcUpd_congr hp h h'
    | fbArm n => exact execFbArm_congr hp h h'
    | fbPush b => exact execFbPush_congr hp h h'
    | kpParse => exact execKpParse_congr hfill hp h h'
    | hrByte b => exact execHrByte_congr hp h h'
    | rd a => rfl
  · rw [exec_keeps_part hg h, exec_keeps_part hg h', hp]

end

/-! ### Two commands of different groups -/

section
variable {i j : Instr} {s t u t₁ u₁ : State}

theorem exec_of_execAll_pair (h : execAll [i, j] s = .next t) :
    ∃ t₁, exec i s = .next t₁ ∧ exec j t₁ = .next t := by
  obtain ⟨t₁, -, h₁, -, -⟩ := exec_next i s
  obtain ⟨t₂, -, h₂, -, -⟩ := exec_next j t₁
  rw [execAll_cons h₁, execAll_cons h₂] at h
  cases h
  exact ⟨t₁, h₁, h₂⟩

/-- On the registers that `j` cannot write, `i` does the same whether `j` comes after it or before it. -/
theorem part_eq_of_swap {g : SubBlock} (hs : s.Inv) (hg : g ≠ subBlock j)
    (hi : exec i s = .next t₁) (hij : exec j t₁ = .next t)
    (hj : exec j s = .next u₁) (hji : exec i u₁ = .next u) : g.part t = g.part u :=
  calc g.part t = g.part t₁ := exec_keeps_part hg hij
    _ = g.part u := exec_congr_part hs (exec_keeps_part hg hj).symm hi hji

end

/-! ### The statements -/

/-- Settles O16: each command keeps its own group's clauses and does not touch the others' registers. -/
theorem stepKeepsTheInvariant : Obligations.StepKeepsTheInvariant := by
  intro s t hs h
  exact step_keeps_inv hs h

/-- Settles O15, by evaluating the invariant on the one state. -/
theorem resetMeetsTheInvariant : Obligations.ResetMeetsTheInvariant :=
  reset_inv

/-- Settles O54: the generator's commands write `CRC_ACC` and the response. -/
theorem frameOfCrcInitAndCrcUpd : Obligations.FrameOfCrcInitAndCrcUpd := by
  intro i s t hi h
  have hgroup : subBlock i = .generator := by
    obtain rfl | ⟨b, rfl⟩ := hi <;> rfl
  rw [exec_generator_writes hgroup h]
  exact ⟨rfl, rfl, rfl, rfl, rfl, rfl, fun _ => rfl, fun _ => rfl, fun _ => rfl⟩

/-- Settles O19, a group's registers at a time: of two commands of different groups at most one can write them, and the
other order leaves the same in them. -/
theorem subBlocksDoNotDisturbEachOther : Obligations.SubBlocksDoNotDisturbEachOther := by
  intro i j s t u hs hne ht hu
  obtain ⟨t₁, hi, hij⟩ := exec_of_execAll_pair ht
  obtain ⟨u₁, hj, hji⟩ := exec_of_execAll_pair hu
  apply State.sameRegisters_of_part_eq
  intro g
  by_cases hg : g = subBlock j
  · have hgi : g ≠ subBlock i := fun hi' => hne (hi'.symm.trans hg)
    exact (part_eq_of_swap hs hgi hj hji hi hij).symm
  · exact part_eq_of_swap hs hg hi hij hj hji

end Sys2Proof.Machine

/-! The register space (20_memory.md) and the cells behind it: the map of R41 as a one-to-one correspondence, what `RD`
answers at a mapped address, which command writes which register (R42), and the buffer as the list of the bytes pushed
since the last arm (R47). -/

namespace Sys2Proof.Machine

/-! ### The address map (R41) -/

/-- An address is its offset in a range added to where the range begins. -/
theorem ofNat_base_add_offset {a : Byte} {base : Nat} (h : base ≤ a.toNat) :
    BitVec.ofNat 8 (base + (a.toNat - base)) = a := by
  rw [Nat.add_sub_cancel' h, BitVec.ofNat_toNat, BitVec.setWidth_eq]

theorem regAt_regAddr (r : Reg) : regAt (regAddr r) = some r := by
  cases r with
  | fbData i => exact regAt_fbData i
  | kFrame i => exact regAt_kFrame i
  | hpData i => exact regAt_hpData i
  | _ => rfl

theorem regAddr_of_regAt {a : Byte} {r : Reg} (h : regAt a = some r) : regAddr r = a := by
  unfold regAt at h
  split_ifs at h with h0 h1 h2 h3 h4 h5 hb hk hp <;> cases h
  · exact h0.symm
  · exact h1.symm
  · exact h2.symm
  · exact h3.symm
  · exact h4.symm
  · exact h5.symm
  · exact ofNat_base_add_offset hb.1
  · exact ofNat_base_add_offset hk.1
  · exact ofNat_base_add_offset hp.1

theorem mappedAddress_regAddr (r : Reg) : mappedAddress (regAddr r) = true := by
  cases r with
  | fbData i => revert i; decide
  | kFrame i => revert i; decide
  | hpData i => revert i; decide
  | _ => rfl

theorem mappedAddress_eq_false_of_regAt {a : Byte} (h : regAt a = none) : mappedAddress a = false := by
  unfold regAt at h
  split_ifs at h with h0 h1 h2 h3 h4 h5 hb hk hp
  simp only [mappedAddress, Bool.or_eq_false_iff, Bool.and_eq_false_iff, decide_eq_false_iff_not]
  bv_omega

theorem isSome_regAt (a : Byte) : (regAt a).isSome = mappedAddress a := by
  cases h : regAt a with
  | none => exact (mappedAddress_eq_false_of_regAt h).symm
  | some r => rw [← regAddr_of_regAt h, mappedAddress_regAddr]; rfl

/-! ### A read after a store (R47 (a)) -/

section
variable {s : State} {a b : Byte} {r : Reg}

theorem exec_fbPush_of_ne (h : s.fbPos ≠ s.fbCap) :
    exec (.fbPush b) s = .next (((storeFbData s.fbPos.toNat b s).setFbPos (s.fbPos + 1#4)).setRsp
      (some ⟨.ok, zext8 (s.fbPos + 1#4)⟩)) :=
  if_neg h

theorem exec_rd_of_regAt (h : regAt a = some r) :
    exec (.rd a) s = .next ((s.setDraws (readReg r s).2).setRsp (some ⟨.ok, (readReg r s).1⟩)) := by
  change execRd a s = _
  rw [execRd, memRead, h]
  rfl

theorem readReg_fbData_of_written {i : Fin 10} (h : s.fbData[i.val] = some b) :
    readReg (.fbData i) s = (b, s.draws) := by
  change readCell s.fbData[i.val] s.draws = _
  rw [h, readCell_some]

end

/-! ### Which command writes which register (R42) -/

section
variable {i : Instr} {s t : State}

theorem subBlock_eq_generator_iff : subBlock i = .generator ↔ i = .crcInit ∨ ∃ b, i = .crcUpd b := by
  cases i <;> simp [subBlock]

theorem subBlock_eq_resynchronizer_iff : subBlock i = .resynchronizer ↔ ∃ b, i = .hrByte b := by
  cases i <;> simp [subBlock]

/-- A command that changes a register of a group is a command of that group. -/
theorem subBlock_eq_of_part_ne {g : SubBlock} (h : exec i s = .next t) (hne : g.part t ≠ g.part s) :
    subBlock i = g := by
  by_contra hg
  exact hne (exec_keeps_part (Ne.symm hg) h)

/-- The registers of the buffer and the parser, by the command: an arm leaves the cells, a push the capacity and the
latched frame, a parse the buffer and, unless it answers `OK`, the latched frame; the commands of the other groups leave
all of them. -/
theorem exec_buffer_cases (h : exec i s = .next t) :
    ((∃ n, i = .fbArm n) ∧ t.fbData = s.fbData ∧ t.kFrame = s.kFrame) ∨
    ((∃ b, i = .fbPush b) ∧ t.fbCap = s.fbCap ∧ t.kFrame = s.kFrame) ∨
    (i = .kpParse ∧ t.fbPos = s.fbPos ∧ t.fbCap = s.fbCap ∧ t.fbData = s.fbData ∧
      (t.kFrame ≠ s.kFrame → ∃ d, t.rsp = some ⟨.ok, d⟩)) ∨
    (subBlock i ≠ .bufferAndParser ∧ t.fbPos = s.fbPos ∧ t.fbCap = s.fbCap ∧ t.fbData = s.fbData ∧
      t.kFrame = s.kFrame) := by
  by_cases hg : .bufferAndParser = subBlock i
  · cases i with
    | fbArm n =>
      obtain ⟨-, rfl⟩ | ⟨-, rfl⟩ := execFbArm_cases h <;> exact .inl ⟨⟨n, rfl⟩, rfl, rfl⟩
    | fbPush b =>
      obtain ⟨-, rfl⟩ | ⟨-, rfl⟩ := execFbPush_cases h <;> exact .inr (.inl ⟨⟨b, rfl⟩, rfl, rfl⟩)
    | kpParse =>
      refine .inr (.inr (.inl ⟨rfl, ?_⟩))
      obtain ⟨-, rfl⟩ | ⟨-, -, rfl⟩ | ⟨-, -, rfl⟩ := execKpParse_cases h
      · exact ⟨rfl, rfl, rfl, fun hne => absurd rfl hne⟩
      · exact ⟨rfl, rfl, rfl, fun _ => ⟨_, rfl⟩⟩
      · exact ⟨rfl, rfl, rfl, fun hne => absurd rfl hne⟩
    | _ => cases hg
  · exact .inr (.inr (.inr ⟨Ne.symm hg, SubBlock.part_bufferAndParser_eq_iff.mp (exec_keeps_part hg h)⟩))

end

/-! ### The buffer since the last arm (R47 (b), R105) -/

/-- What a buffer armed for `n` holds once the bytes `bs` were offered to it, the first `n` of which it takes. -/
structure State.HoldsPushed (n : Nat) (bs : List Byte) (s : State) : Prop where
  cap : s.fbCap.toNat = n
  pos : s.fbPos.toNat = min n bs.length
  cell : ∀ k : Fin 10, k.val < s.fbPos.toNat → s.fbData[k.val] = bs[k.val]?

section
variable {i : Instr} {s t : State} {b c : Byte} {n : Nat} {bs : List Byte}

theorem State.HoldsPushed.of_buffer_eq (hs : s.HoldsPushed n bs) (hpos : t.fbPos = s.fbPos) (hcap : t.fbCap = s.fbCap)
    (hdata : t.fbData = s.fbData) : t.HoldsPushed n bs where
  cap := hcap ▸ hs.cap
  pos := hpos ▸ hs.pos
  cell := hpos ▸ hdata ▸ hs.cell

theorem execFbArm_holdsPushed (hc : c.toNat ≤ 10) (h : execFbArm c s = .next t) : t.HoldsPushed c.toNat [] := by
  obtain ⟨-, rfl⟩ | ⟨hc', -⟩ := execFbArm_cases h
  · exact ⟨toNat_capacity hc, (Nat.min_zero _).symm, fun k hk => absurd hk (Nat.not_lt_zero _)⟩
  · omega

/-- A push on a full buffer is dropped, and `n` bytes were offered before it; any other push extends the held bytes. -/
theorem execFbPush_holdsPushed (hs : s.HoldsPushed n bs) (h : execFbPush b s = .next t) :
    t.HoldsPushed n (bs ++ [b]) := by
  obtain ⟨hcap, hpos, hcell⟩ := hs
  obtain ⟨heq, rfl⟩ | ⟨hne, rfl⟩ := execFbPush_cases h
  · have hfull : n ≤ bs.length := by rw [heq, hcap] at hpos; omega
    refine ⟨hcap, hpos.trans (by rw [List.length_append]; omega), fun k hk => ?_⟩
    have hk : k.val < s.fbPos.toNat := hk
    rw [List.getElem?_append_left (by omega)]
    exact hcell k hk
  · have hlt : s.fbPos.toNat ≠ n := fun hn => hne (BitVec.eq_of_toNat_eq (hn.trans hcap.symm))
    have hlen : s.fbPos.toNat = bs.length := by omega
    have hnext : (s.fbPos + 1#4).toNat = bs.length + 1 := by bv_omega
    refine ⟨hcap, hnext.trans (by rw [List.length_append, List.length_singleton]; omega), fun k hk => ?_⟩
    have hk : k.val < bs.length + 1 := hnext ▸ hk
    change (storeFbData s.fbPos.toNat b s).fbData[k.val] = _
    rw [storeFbData_getElem, hlen]
    split
    next hlast => rw [← hlast, List.getElem?_concat_length]
    next hold =>
      rw [List.getElem?_append_left (by omega)]
      exact hcell k (by omega)

theorem pushBytes_singleton_of_subBlock_ne (hg : subBlock i ≠ .bufferAndParser) : pushBytes [i] = [] := by
  cases i with
  | fbPush b => exact absurd rfl hg
  | _ => rfl

/-- A command other than an arm offers its byte, if it is a push, and leaves the held bytes otherwise. -/
theorem exec_holdsPushed (hi : isArm i = false) (hs : s.HoldsPushed n bs) (h : exec i s = .next t) :
    t.HoldsPushed n (bs ++ pushBytes [i]) := by
  obtain ⟨⟨_, rfl⟩, -⟩ | ⟨⟨_, rfl⟩, -⟩ | ⟨rfl, hpos, hcap, hdata, -⟩ | ⟨hg, hpos, hcap, hdata, -⟩ := exec_buffer_cases h
  · cases hi
  · exact execFbPush_holdsPushed hs h
  · change t.HoldsPushed n (bs ++ [])
    rw [List.append_nil]
    exact hs.of_buffer_eq hpos hcap hdata
  · rw [pushBytes_singleton_of_subBlock_ne hg, List.append_nil]
    exact hs.of_buffer_eq hpos hcap hdata

theorem pushBytes_cons (i : Instr) (is : List Instr) : pushBytes (i :: is) = pushBytes [i] ++ pushBytes is :=
  List.filterMap_append (l := [i])

theorem execAll_holdsPushed {is : List Instr} (his : ∀ i ∈ is, isArm i = false) (hs : s.HoldsPushed n bs) :
    ∃ t, execAll is s = .next t ∧ t.HoldsPushed n (bs ++ pushBytes is) := by
  induction is generalizing s bs with
  | nil => exact ⟨s, rfl, (List.append_nil bs).symm ▸ hs⟩
  | cons i is ih =>
    obtain ⟨u, -, hu, -, -⟩ := exec_next i s
    obtain ⟨hi, his⟩ := List.forall_mem_cons.mp his
    rw [execAll_cons hu, pushBytes_cons, ← List.append_assoc]
    exact ih his (exec_holdsPushed hi hs hu)

end

/-! ### The statements -/

/-- Settles O31: an arm empties the buffer, and every later command keeps `State.HoldsPushed`. -/
theorem bufferHoldsPushedBytesInOrder : Obligations.BufferHoldsPushedBytesInOrder := by
  intro n is s hn his
  obtain ⟨u, -, hu, -, -⟩ := exec_next (.fbArm n) s
  obtain ⟨t, ht, hheld⟩ := execAll_holdsPushed his (execFbArm_holdsPushed hn hu)
  exact ⟨t, (execAll_cons hu).trans ht, hheld.pos, hheld.cell⟩

/-- Settles O18: the generator's and the resynchronizer's registers by their groups, those of the buffer and the parser,
which three commands share, by the command. -/
theorem registersAreWrittenByTheirOwners : Obligations.RegistersAreWrittenByTheirOwners := by
  intro i s t h
  have hcrc : t.crcAcc ≠ s.crcAcc → i = .crcInit ∨ ∃ b, i = .crcUpd b := fun hne =>
    subBlock_eq_generator_iff.mp (subBlock_eq_of_part_ne h (mt SubBlock.part_generator_eq_iff.mp hne))
  have hresync : t.hrCnt ≠ s.hrCnt ∨ t.hrSkip ≠ s.hrSkip ∨ t.hpData ≠ s.hpData → ∃ b, i = .hrByte b := by
    intro hne
    refine subBlock_eq_resynchronizer_iff.mp (subBlock_eq_of_part_ne h fun hpart => ?_)
    obtain ⟨hcnt, hskip, hdata⟩ := SubBlock.part_resynchronizer_eq_iff.mp hpart
    simp [hcnt, hskip, hdata] at hne
  obtain ⟨hi, hdata, hframe⟩ | ⟨hi, hcap, hframe⟩ | ⟨hi, hpos, hcap, hdata, hok⟩ | ⟨-, hpos, hcap, hdata, hframe⟩ :=
    exec_buffer_cases h
  · exact ⟨hcrc, fun _ => .inl hi, fun _ => hi, absurd hdata, absurd hframe, hresync⟩
  · exact ⟨hcrc, fun _ => .inr hi, absurd hcap, fun _ => hi, absurd hframe, hresync⟩
  · exact ⟨hcrc, absurd hpos, absurd hcap, absurd hdata, fun hne => ⟨hi, hok hne⟩, hresync⟩
  · exact ⟨hcrc, absurd hpos, absurd hcap, absurd hdata, absurd hframe, hresync⟩

/-- Settles O32: the push writes the cell at `FB_POS`, and the map gives that cell for the address `0x10 + FB_POS`. -/
theorem pushedByteReadsBack : Obligations.PushedByteReadsBack := by
  intro b s hlt hne
  have hstored : (storeFbData s.fbPos.toNat b s).fbData[s.fbPos.toNat] = some b := by
    rw [storeFbData_getElem, if_pos rfl]
  rw [execAll_cons (exec_fbPush_of_ne hne), execAll_cons (exec_rd_of_regAt (regAt_fbData ⟨_, hlt⟩)),
    readReg_fbData_of_written (b := b) hstored]
  exact ⟨_, rfl, rfl⟩

/-- Settles O52: the map and `regAddr` are inverse to each other, and the addresses the ranges give are counted. -/
theorem registerMapIsClosedAndWithoutAliases : Obligations.RegisterMapIsClosedAndWithoutAliases := by
  refine ⟨isSome_regAt, regAt_regAddr, fun _ _ => regAddr_of_regAt, ?_⟩
  simp only [isSome_regAt]
  decide

end Sys2Proof.Machine

/-! The encoding of commands and responses (30_encoding.md R61 to R64, R67, R73): what the decoder answers for each word,
how the rows of the table relate to it, the count of the reserved words, and the status codes. -/

namespace Sys2Proof.Machine

/-! ### What the decoder can answer -/

theorem encode_eq_of_fields {i : Instr} {w : CmdWord} (hop : i.op = opField w) (harg : i.arg = argField w) :
    encode i = w := by
  rw [encode, hop, harg, append_fields]

/-- The `op` codes of the commands without an operand, for which only `arg` 0x00 is assigned (R67). -/
abbrev NeedsZeroArg (op : BitVec 4) : Prop := op = 0x0#4 ∨ op = 0x1#4 ∨ op = 0x5#4

theorem NeedsZeroArg.op_lt {op : BitVec 4} (h : NeedsZeroArg op) : op.toNat < 0x8 := by
  obtain rfl | rfl | rfl := h <;> decide

/-- The answers the decoder may give to `w`: the command that `w` encodes, or the reason of R67 why it encodes none. -/
inductive DecodesTo (w : CmdWord) : Except Reserved Instr → Prop where
  | assigned {i : Instr} (h : encode i = w) : DecodesTo w (.ok i)
  | nonzeroArg (hop : NeedsZeroArg (opField w)) (harg : argField w ≠ 0x00#8) : DecodesTo w (.error .nonzeroArg)
  | unassignedOp (hop : 0x8 ≤ (opField w).toNat) : DecodesTo w (.error .unassignedOp)

theorem noOperand_decodesTo {i : Instr} {w : CmdWord} (hop : i.op = opField w) (hrow : NeedsZeroArg i.op)
    (harg : i.arg = 0x00#8) : DecodesTo w (noOperand i (argField w)) := by
  unfold noOperand
  split
  next h0 => exact .assigned (encode_eq_of_fields hop (harg.trans h0.symm))
  next h0 => exact .nonzeroArg (hop ▸ hrow) h0

theorem decode_decodesTo (w : CmdWord) : DecodesTo w (decode w) := by
  have assigned {i : Instr} (hop : i.op.toNat = (opField w).toNat) (harg : i.arg = argField w) :
      DecodesTo w (.ok i) :=
    .assigned (encode_eq_of_fields (BitVec.eq_of_toNat_eq hop) harg)
  unfold decode
  split
  next hop => exact noOperand_decodesTo (BitVec.eq_of_toNat_eq hop.symm) (.inl rfl) rfl
  next hop => exact noOperand_decodesTo (BitVec.eq_of_toNat_eq hop.symm) (.inr (.inl rfl)) rfl
  next hop => exact assigned hop.symm rfl
  next hop => exact assigned hop.symm rfl
  next hop => exact assigned hop.symm rfl
  next hop => exact noOperand_decodesTo (BitVec.eq_of_toNat_eq hop.symm) (.inr (.inr rfl)) rfl
  next hop => exact assigned hop.symm rfl
  next hop => exact assigned hop.symm rfl
  next => exact .unassignedOp (by grind)

/-- With `decode_encode`, this says that the assigned words and the commands correspond one to one. -/
theorem encode_of_decode {w : CmdWord} {i : Instr} (h : decode w = .ok i) : encode i = w := by
  have hw := decode_decodesTo w
  rw [h] at hw
  cases hw with
  | assigned hi => exact hi

/-! ### The reserved words (R67) -/

section
variable {w : CmdWord} {i : Instr}

theorem instr_op_lt (i : Instr) : i.op.toNat < 0x8 := by
  cases i <;> simp [Instr.op]

theorem instr_arg_eq_zero_of_op (h : NeedsZeroArg i.op) : i.arg = 0x00#8 := by
  cases i with
  | nop | crcInit | kpParse => rfl
  | crcUpd _ | fbArm _ | fbPush _ | hrByte _ | rd _ => simp [NeedsZeroArg, Instr.op] at h

theorem decode_eq_nonzeroArg_iff : decode w = .error .nonzeroArg ↔ NeedsZeroArg (opField w) ∧ argField w ≠ 0x00#8 := by
  have hw := decode_decodesTo w
  generalize decode w = r at hw
  cases hw with
  | assigned hi =>
    subst hi
    simpa using instr_arg_eq_zero_of_op
  | nonzeroArg hop harg => exact iff_of_true rfl ⟨hop, harg⟩
  | unassignedOp hop => exact iff_of_false (by simp) fun ⟨h, _⟩ => absurd h.op_lt (Nat.not_lt.mpr hop)

theorem decode_eq_unassignedOp_iff : decode w = .error .unassignedOp ↔ 0x8 ≤ (opField w).toNat := by
  have hw := decode_decodesTo w
  generalize decode w = r at hw
  cases hw with
  | assigned hi =>
    subst hi
    simpa using instr_op_lt _
  | nonzeroArg hop _ => exact iff_of_false (by simp) fun h => absurd hop.op_lt (Nat.not_lt.mpr h)
  | unassignedOp hop => exact iff_of_true rfl hop

theorem exists_decode_eq_error_iff : (∃ e, decode w = .error e) ↔
    0x8 ≤ (opField w).toNat ∨ (NeedsZeroArg (opField w) ∧ argField w ≠ 0x00#8) := by
  rw [← decode_eq_unassignedOp_iff, ← decode_eq_nonzeroArg_iff]
  constructor
  · rintro ⟨_ | _, h⟩
    · exact .inl h
    · exact .inr h
  · rintro (h | h) <;> exact ⟨_, h⟩

end

/-! ### Counting words, one `op` after another -/

theorem countP_range_mul (p : Nat → Bool) (m k : Nat) :
    (List.range (m * k)).countP p =
      ((List.range m).map fun q => (List.range k).countP fun r => p (q * k + r)).sum := by
  induction m with
  | zero => simp
  | succ m ih =>
    rw [Nat.succ_mul, List.range_add, List.countP_append, ih, List.countP_map, List.range_succ, List.map_append,
      List.sum_append, List.map_singleton, List.sum_singleton]
    rfl

theorem ofNat_op_arg (op : Nat) {arg : Nat} (h : arg < 256) :
    BitVec.ofNat 12 (op * 256 + arg) = BitVec.ofNat 4 op ++ BitVec.ofNat 8 arg := by
  apply BitVec.eq_of_toNat_eq
  rw [BitVec.toNat_append, BitVec.toNat_ofNat, BitVec.toNat_ofNat, BitVec.toNat_ofNat,
    ← Nat.shiftLeft_add_eq_or_of_lt (Nat.mod_lt _ (by decide)), Nat.shiftLeft_eq]
  omega

theorem countP_words (p : CmdWord → Bool) :
    ((List.range 4096).countP fun n => p (BitVec.ofNat 12 n)) =
      ((List.range 16).map fun op =>
        (List.range 256).countP fun arg => p (BitVec.ofNat 4 op ++ BitVec.ofNat 8 arg)).sum := by
  refine (countP_range_mul (fun n => p (BitVec.ofNat 12 n)) 16 256).trans (congrArg List.sum ?_)
  refine List.map_congr_left fun op _ => List.countP_congr fun arg harg => ?_
  rw [ofNat_op_arg op (List.mem_range.mp harg)]

theorem countP_unassignedOp (op : BitVec 4) :
    ((List.range 256).countP fun n => decode (op ++ BitVec.ofNat 8 n) == .error .unassignedOp) =
      if 0x8 ≤ op.toNat then 256 else 0 := by
  split
  next hop =>
    refine (List.countP_eq_length.mpr fun n _ => ?_).trans List.length_range
    simpa [decode_eq_unassignedOp_iff] using hop
  next hop => exact List.countP_eq_zero.mpr fun n _ => by simpa [decode_eq_unassignedOp_iff] using hop

/-- Where `arg` must be 0x00, every word but that one is reserved. -/
theorem countP_nonzeroArg (op : BitVec 4) :
    ((List.range 256).countP fun n => decode (op ++ BitVec.ofNat 8 n) == .error .nonzeroArg) =
      if NeedsZeroArg op then 255 else 0 := by
  split
  next hop =>
    rw [List.range_succ_eq_map, List.countP_cons_of_neg (by simp [decode_eq_nonzeroArg_iff]), List.countP_map]
    refine (List.countP_eq_length.mpr fun n hn => ?_).trans List.length_range
    have harg : BitVec.ofNat 8 (n + 1) ≠ 0x00#8 := by
      have hlt : n < 255 := List.mem_range.mp hn
      bv_omega
    simpa [decode_eq_nonzeroArg_iff] using ⟨hop, harg⟩
  next hop => exact List.countP_eq_zero.mpr fun n _ => by simp [decode_eq_nonzeroArg_iff, hop]

/-! ### The rows of the encoding table (R61) -/

theorem assignedWord_iff {w : CmdWord} : assignedWord w = true ↔ ∃ r ∈ encodingTable, r.matchesWord w = true :=
  List.any_eq_true

theorem opField_and (v w : CmdWord) : opField (v &&& w) = opField v &&& opField w :=
  BitVec.extractLsb'_and ..

/-- A row with the mask 0xF00 matches every word with its `op`. -/
theorem matchesWord_operandRow (name : String) (op : BitVec 4) (arg : Byte) :
    (⟨name, op ++ 0x00#8, 0xF00#12⟩ : TableRow).matchesWord (op ++ arg) = true :=
  beq_iff_eq.mpr (Laws.EncodesAssigned.op_and_mask op arg)

/-- The row of a command. -/
theorem exists_row_encode (i : Instr) :
    ∃ r ∈ encodingTable, r.matchesWord (encode i) = true ∧ r.mnemonic = mnemonic i := by
  cases i with
  | nop => exact ⟨⟨"NOP", 0x000#12, 0xFFF#12⟩, by simp [encodingTable], by decide, rfl⟩
  | crcInit => exact ⟨⟨"CRC_INIT", 0x100#12, 0xFFF#12⟩, by simp [encodingTable], by decide, rfl⟩
  | crcUpd b => exact ⟨⟨"CRC_UPD", 0x200#12, 0xF00#12⟩, by simp [encodingTable], matchesWord_operandRow _ 0x2#4 b, rfl⟩
  | fbArm n => exact ⟨⟨"FB_ARM", 0x300#12, 0xF00#12⟩, by simp [encodingTable], matchesWord_operandRow _ 0x3#4 n, rfl⟩
  | fbPush b => exact ⟨⟨"FB_PUSH", 0x400#12, 0xF00#12⟩, by simp [encodingTable], matchesWord_operandRow _ 0x4#4 b, rfl⟩
  | kpParse => exact ⟨⟨"KP_PARSE", 0x500#12, 0xFFF#12⟩, by simp [encodingTable], by decide, rfl⟩
  | hrByte b => exact ⟨⟨"HR_BYTE", 0x600#12, 0xF00#12⟩, by simp [encodingTable], matchesWord_operandRow _ 0x6#4 b, rfl⟩
  | rd a => exact ⟨⟨"RD", 0x700#12, 0xF00#12⟩, by simp [encodingTable], matchesWord_operandRow _ 0x7#4 a, rfl⟩

section
variable {r q : TableRow} {w : CmdWord}

/-- Every mask covers the whole `op`. -/
theorem opField_of_matchesWord (hr : r ∈ encodingTable) (h : r.matchesWord w = true) :
    opField w = opField r.pattern := by
  have hmask : ∀ r ∈ encodingTable, opField r.mask = BitVec.allOnes 4 := by decide
  rw [← beq_iff_eq.mp h, opField_and, hmask r hr, BitVec.and_allOnes]

/-- The table has one row for each `op` it assigns. -/
theorem row_eq_of_opField_eq (hr : r ∈ encodingTable) (hq : q ∈ encodingTable)
    (h : opField r.pattern = opField q.pattern) : r = q := by
  have hinj : ∀ r ∈ encodingTable, ∀ q ∈ encodingTable, opField r.pattern = opField q.pattern → r = q := by decide
  exact hinj r hr q hq h

/-- A row of a command without an operand matches its pattern only. -/
theorem argField_of_matchesWord (hr : r ∈ encodingTable) (h : r.matchesWord w = true)
    (hop : NeedsZeroArg (opField w)) : argField w = 0x00#8 := by
  have hrow : ∀ r ∈ encodingTable, NeedsZeroArg (opField r.pattern) →
      r.mask = BitVec.allOnes 12 ∧ argField r.pattern = 0x00#8 := by decide
  rw [opField_of_matchesWord hr h] at hop
  obtain ⟨hmask, harg⟩ := hrow r hr hop
  have hw : w &&& r.mask = r.pattern := beq_iff_eq.mp h
  rw [hmask, BitVec.and_allOnes] at hw
  rw [hw, harg]

theorem exists_decode_of_matchesWord (hr : r ∈ encodingTable) (h : r.matchesWord w = true) :
    ∃ i, decode w = .ok i := by
  have hassigned : ∀ r ∈ encodingTable, (opField r.pattern).toNat < 0x8 := by decide
  have hw := decode_decodesTo w
  generalize decode w = d at hw
  cases hw with
  | assigned hi => exact ⟨_, rfl⟩
  | nonzeroArg hop harg => exact absurd (argField_of_matchesWord hr h hop) harg
  | unassignedOp hop =>
    rw [opField_of_matchesWord hr h] at hop
    exact absurd (hassigned r hr) (Nat.not_lt.mpr hop)

end

/-! ### The status codes (R64) -/

/-- The statuses in the order of R64's table. -/
def statusTable : List Status :=
  [.ok, .errIllegalOp, .errBadArg, .fbDropped, .kpCrcFail, .kpNotReady, .hrSkipped, .hrIdle, .hrSync, .hrCollision,
    .hrStored, .hrPktReady]

theorem statusTable_getElem?_statusCode (st : Status) : statusTable[(statusCode st).toNat]? = some st := by
  cases st <;> rfl

theorem statusCode_lt (st : Status) : (statusCode st).toNat < 0xC := by
  obtain ⟨hlt, -⟩ := List.getElem?_eq_some_iff.mp (statusTable_getElem?_statusCode st)
  exact hlt

theorem statusCode_injective : Function.Injective statusCode := by
  intro st su h
  have hst := statusTable_getElem?_statusCode st
  rw [h, statusTable_getElem?_statusCode] at hst
  exact (Option.some.inj hst).symm

/-! ### The word the host places -/

theorem decodeTableWord_eq_some {nbits w : Nat} {i : Instr} (h : decodeTableWord nbits w = some i) :
    ∃ c, tableCycle nbits w = PortIn.command c ∧ decode c = .ok i := by
  unfold decodeTableWord at h
  unfold tableCycle
  split at h
  · cases h
  next c hc =>
    split at h
    next j hj =>
      cases h
      exact ⟨c, by rw [hc], hj⟩
    next => cases h

/-! ### The statements -/

/-- Settles O1: the decoder sees the `op` and the `arg` that the encoder joined. -/
theorem decodeOfEncodeIsIdentity : Obligations.DecodeOfEncodeIsIdentity :=
  decode_encode

/-- Settles O2, from the answers the decoder may give. -/
theorem encodeOfDecodeIsIdentity : Obligations.EncodeOfDecodeIsIdentity := by
  intro w i h
  exact encode_of_decode h

/-- Settles O3: an accepted word is an encoding, which its command's row matches; no row matches a reserved word; and a
word's `op` tells the row that matches it. -/
theorem decoderFollowsTheEncodingTable : Obligations.DecoderFollowsTheEncodingTable := by
  refine ⟨fun w => ⟨?_, ?_⟩, ?_, ?_⟩
  · rintro ⟨i, h⟩
    obtain ⟨r, hr, hmatch, -⟩ := exists_row_encode i
    exact assignedWord_iff.mpr ⟨r, hr, encode_of_decode h ▸ hmatch⟩
  · intro h
    obtain ⟨r, hr, hmatch⟩ := assignedWord_iff.mp h
    exact exists_decode_of_matchesWord hr hmatch
  · intro w i h
    rw [← encode_of_decode h]
    exact ⟨(argField_encode i).symm, exists_row_encode i⟩
  · intro w r q hr hq hrw hqw
    exact row_eq_of_opField_eq hr hq ((opField_of_matchesWord hr hrw).symm.trans (opField_of_matchesWord hq hqw))

/-- Settles O5: the decoder's two reasons by the fields, their counts summed over the sixteen `op` values, and the step's
equation for a word that does not decode. -/
theorem reservedWordsAnswerIllegalOp : Obligations.ReservedWordsAnswerIllegalOp := by
  refine ⟨fun op arg => ?_, ?_, ?_, fun s w e rest h => ?_⟩
  · simpa only [opField_append, argField_append] using exists_decode_eq_error_iff (w := op ++ arg)
  · rw [countP_words fun w => decode w == .error .unassignedOp]
    simp only [countP_unassignedOp]
    decide
  · rw [countP_words fun w => decode w == .error .nonzeroArg]
    simp only [countP_nonzeroArg]
    decide
  · exact step_of_decode_error (s := s.setPort (PortIn.command w :: rest)) rfl rfl h

/-- Settles O7: the cases of each command's meaning. -/
theorem statusesOfEachCommand : Obligations.StatusesOfEachCommand := by
  intro i s t h
  cases i with
  | nop => rw [execNop_cases h]; exact ⟨_, _, rfl, rfl⟩
  | crcInit => rw [execCrcInit_cases h]; exact ⟨_, _, rfl, rfl⟩
  | crcUpd b => rw [execCrcUpd_cases h]; exact ⟨_, _, rfl, rfl⟩
  | fbArm n =>
    obtain ⟨-, rfl⟩ | ⟨-, rfl⟩ := execFbArm_cases h <;> exact ⟨_, _, rfl, by simp⟩
  | fbPush b =>
    obtain ⟨-, rfl⟩ | ⟨-, rfl⟩ := execFbPush_cases h <;> exact ⟨_, _, rfl, by simp⟩
  | kpParse =>
    obtain ⟨-, rfl⟩ | ⟨-, -, rfl⟩ | ⟨-, -, rfl⟩ := execKpParse_cases h <;> exact ⟨_, _, rfl, by simp⟩
  | hrByte b =>
    obtain ⟨-, rfl⟩ | ⟨-, -, -, rfl⟩ | ⟨-, -, -, rfl⟩ | ⟨-, -, -, -, rfl⟩ | ⟨-, -, rfl⟩ | ⟨-, -, -, rfl⟩ :=
      execHrByte_cases h <;> exact ⟨_, _, rfl, by simp⟩
  | rd a =>
    obtain ⟨_, -, rfl⟩ | ⟨-, rfl⟩ := execRd_cases h <;> exact ⟨_, _, rfl, by simp⟩

/-- Settles O4: the first eight words are what the encoder gives for the commands; the other two meet R67's conditions. -/
theorem sampleWordsDecode : Obligations.SampleWordsDecode :=
  ⟨decode_encode .nop, decode_encode .crcInit, decode_encode (.crcUpd 0x31#8), decode_encode (.fbArm 0x0A#8),
    decode_encode (.fbPush 0x19#8), decode_encode .kpParse, decode_encode (.hrByte 0x9B#8), decode_encode (.rd 0x03#8),
    decode_eq_nonzeroArg_iff.mpr (by decide), decode_eq_unassignedOp_iff.mpr (by decide)⟩

/-- Settles O6: the two fields of a joined word, and the code as the status's place in the table. -/
theorem responseCodesAreDistinctAndBelowC : Obligations.ResponseCodesAreDistinctAndBelowC :=
  ⟨fun st d => ⟨opField_append (statusCode st) d, argField_append (statusCode st) d, statusCode_lt st⟩,
    fun _ _ h => statusCode_injective h, by decide⟩

/-- Settles O9: the placed cycle presents the word that decodes to the command, and taking it off leaves the port. -/
theorem placedWordIsRunNext : Obligations.PlacedWordIsRunNext := by
  intro s nbits w i h
  obtain ⟨c, hcycle, hc⟩ := decodeTableWord_eq_some h
  rw [State.withFetchWord, hcycle]
  exact stepRunsTheDecodedCommand s (PortIn.command c) s.port i rfl rfl hc

end Sys2Proof.Machine

/-! The Checksum Unit (40_crc8.md): the rounds and the byte step as linear injections over XOR (R81, R86), from these the
residue and the error detection of `crc8`, its polynomial form over GF(2), and the generator as the function computed a
byte at a time (R83 to R85). -/

namespace Sys2Proof.Machine

/-! ### One round (R81) -/

/-- What a round XORs into the shifted value, by the bit shifted out. -/
def crcFeedback (carry : Bool) : Byte := if carry then Config.crcPoly else 0x00#8

theorem crcFeedback_xor (p q : Bool) : crcFeedback (p ^^ q) = crcFeedback p ^^^ crcFeedback q := by
  cases p <;> cases q <;> rfl

section
variable {v : Byte}

theorem crc8Round_of_msb (h : v.msb = true) : crc8Round v = (v <<< 1) ^^^ Config.crcPoly := if_pos h

theorem crc8Round_of_not_msb (h : v.msb = false) : crc8Round v = v <<< 1 := if_neg (Bool.eq_false_iff.mp h)

theorem crc8Round_eq_xor_feedback (v : Byte) : crc8Round v = (v <<< 1) ^^^ crcFeedback v.msb := by
  cases h : v.msb with
  | true => exact crc8Round_of_msb h
  | false => rw [crc8Round_of_not_msb h]; exact BitVec.xor_zero.symm

theorem toNat_crc8Round (v : Byte) : (crc8Round v).toNat =
    if 128 ≤ v.toNat then ((2 * v.toNat) ^^^ 0x07) % 256 else (2 * v.toNat) % 256 := by
  have hshift : (v <<< 1).toNat = (2 * v.toNat) % 256 := by simp [Nat.shiftLeft_eq, Nat.mul_comm]
  have hmsb : v.msb = decide (128 ≤ v.toNat) := BitVec.msb_eq_decide v
  split
  next h =>
    rw [crc8Round_of_msb (hmsb.trans (decide_eq_true h)), BitVec.toNat_xor, hshift]
    exact (Nat.xor_mod_two_pow (n := 8)).symm
  next h => rw [crc8Round_of_not_msb (hmsb.trans (decide_eq_false h)), hshift]

theorem crc8Round_xor (v w : Byte) : crc8Round (v ^^^ w) = crc8Round v ^^^ crc8Round w := by
  simp only [crc8Round_eq_xor_feedback, BitVec.shiftLeft_xor_distrib, BitVec.msb_xor, crcFeedback_xor]
  ac_rfl

/-- The constant is odd, so bit 0 of a round's result tells the bit shifted out. -/
theorem getLsbD_zero_crc8Round (v : Byte) : (crc8Round v).getLsbD 0 = v.msb := by
  cases h : v.msb with
  | true => rw [crc8Round_of_msb h]; simp [Config.crcPoly]
  | false => rw [crc8Round_of_not_msb h]; simp

theorem eq_zero_of_crc8Round_eq_zero (h : crc8Round v = 0x00#8) : v = 0x00#8 := by
  have hmsb : v.msb = false := by rw [← getLsbD_zero_crc8Round, h]; rfl
  have hlt : 2 * v.toNat < 256 := BitVec.msb_eq_false_iff_two_mul_lt.mp hmsb
  rw [crc8Round_of_not_msb hmsb] at h
  bv_omega

theorem crc8Round_injective : Function.Injective crc8Round := by
  intro v w h
  apply BitVec.xor_eq_zero_iff.mp
  apply eq_zero_of_crc8Round_eq_zero
  rw [crc8Round_xor, h, BitVec.xor_self]

end

/-! ### Rounds, and the byte step (R86 (a), (b), (e)) -/

@[simp] theorem crc8Rounds_zero_byte (n : Nat) : crc8Rounds n 0x00#8 = 0x00#8 := by
  induction n with
  | zero => rfl
  | succ n ih => exact ih

theorem crc8Rounds_xor (n : Nat) (v w : Byte) : crc8Rounds n (v ^^^ w) = crc8Rounds n v ^^^ crc8Rounds n w := by
  induction n generalizing v w with
  | zero => rfl
  | succ n ih => rw [crc8Rounds, crc8Round_xor, ih]; rfl

theorem crc8Rounds_injective (n : Nat) : Function.Injective (crc8Rounds n) := by
  induction n with
  | zero => exact Function.injective_id
  | succ n ih => exact ih.comp crc8Round_injective

theorem crc8Byte_comm (c b : Byte) : crc8Byte c b = crc8Byte b c := by
  rw [crc8Byte, crc8Byte, BitVec.xor_comm]

theorem crc8Byte_zero_left (b : Byte) : crc8Byte 0x00#8 b = crc8Rounds Config.crcRounds b := by
  rw [crc8Byte, BitVec.zero_xor]

theorem crc8Byte_injective (c : Byte) : Function.Injective (crc8Byte c) := by
  intro b d h
  exact (BitVec.xor_right_inj c).mp (crc8Rounds_injective _ h)

@[simp] theorem crc8Byte_self (c : Byte) : crc8Byte c c = 0x00#8 := by
  rw [crc8Byte, BitVec.xor_self, crc8Rounds_zero_byte]

theorem crc8Byte_eq_zero_iff {c b : Byte} : crc8Byte c b = 0x00#8 ↔ b = c := by
  rw [← crc8Byte_self c, (crc8Byte_injective c).eq_iff]

/-- Two running values that differ stay different, whatever bytes follow. -/
theorem foldl_crc8Byte_injective (bs : List Byte) : Function.Injective (bs.foldl crc8Byte) := by
  induction bs with
  | nil => exact Function.injective_id
  | cons b bs ih =>
    intro c d h
    have hbyte : crc8Byte c b = crc8Byte d b := ih h
    rw [crc8Byte_comm c, crc8Byte_comm d] at hbyte
    exact crc8Byte_injective b hbyte

/-! ### The function on sequences (R82, R86 (c), (d), (f)) -/

section
variable {m : List Byte} {b : Byte} {i : Nat}

theorem crc8_concat (m : List Byte) (b : Byte) : crc8 (m ++ [b]) = crc8Byte (crc8 m) b :=
  (foldl_crc8Byte_crc8 m [b]).symm

theorem crc8_zero_cons (m : List Byte) : crc8 (0x00#8 :: m) = crc8 m :=
  congrArg (m.foldl crc8Byte) (crc8Byte_self Config.crcSeed)

theorem crc8_concat_eq_zero_iff : crc8 (m ++ [b]) = 0x00#8 ↔ b = crc8 m := by
  rw [crc8_concat, crc8Byte_eq_zero_iff]

theorem frameValid_iff_crc8_eq_zero {bs : List Byte} (h : bs.length = 10) :
    frameValid bs = true ↔ crc8 bs = 0x00#8 := by
  have hsplit : bs.take 9 ++ [bs[9]] = bs := by
    rw [List.take_concat_get', List.take_of_length_le h.le]
  rw [frameValid_iff bs h, ← crc8_concat_eq_zero_iff, hsplit]

/-- A changed byte changes the checksum: the running values differ after it and stay different. -/
theorem crc8_set_eq_iff (h : i < m.length) : crc8 (m.set i b) = crc8 m ↔ b = m[i] := by
  have hcrc (x : Byte) :
      crc8 (m.take i ++ x :: m.drop (i + 1)) = (m.drop (i + 1)).foldl crc8Byte (crc8Byte (crc8 (m.take i)) x) :=
    (foldl_crc8Byte_crc8 ..).symm
  have hm : m.take i ++ m[i] :: m.drop (i + 1) = m := by rw [← List.drop_eq_getElem_cons h, List.take_append_drop]
  calc crc8 (m.set i b) = crc8 m
      ↔ crc8 (m.take i ++ b :: m.drop (i + 1)) = crc8 (m.take i ++ m[i] :: m.drop (i + 1)) := by
        rw [List.set_eq_take_append_cons_drop, if_pos h, hm]
    _ ↔ b = m[i] := by
        rw [hcrc, hcrc, (foldl_crc8Byte_injective _).eq_iff, (crc8Byte_injective _).eq_iff]

theorem one_shiftLeft_ne_zero {k : Nat} (h : k < 8) : 0x01#8 <<< k ≠ 0x00#8 := by
  intro h0
  have hbit : (0x01#8 <<< k).getLsbD k = true := by simp [h]
  simp [h0] at hbit

end

/-! ### The polynomial form over GF(2) (40_crc8.md section 2) -/

section
open Polynomial

/-- `x^8 + x^2 + x + 1`. -/
noncomputable def crcGenerator : (ZMod 2)[X] := X ^ 8 + X ^ 2 + X + 1

/-- A byte as a polynomial: bit `i` is the coefficient of `x^i`. -/
noncomputable def bytePoly (v : Byte) : (ZMod 2)[X] := ∑ i : Fin 8, if v.getLsbD i then X ^ i.val else 0

/-- A message as a polynomial, the most significant bit of the first byte being the highest coefficient. -/
noncomputable def messagePoly (m : List Byte) : (ZMod 2)[X] := m.foldl (fun acc b => X ^ 8 * acc + bytePoly b) 0

theorem messagePoly_concat (m : List Byte) (b : Byte) :
    messagePoly (m ++ [b]) = X ^ 8 * messagePoly m + bytePoly b :=
  List.foldl_concat ..

theorem bytePoly_crcPoly : bytePoly Config.crcPoly = X ^ 2 + X + 1 := by
  simp [bytePoly, Fin.sum_univ_succ, Config.crcPoly]
  ring

/-- Over GF(2) the XOR of two bits is their sum. -/
theorem bytePoly_xor (v w : Byte) : bytePoly (v ^^^ w) = bytePoly v + bytePoly w := by
  rw [bytePoly, bytePoly, bytePoly, ← Finset.sum_add_distrib]
  refine Finset.sum_congr rfl fun i _ => ?_
  rw [BitVec.getLsbD_xor]
  cases v.getLsbD i <;> cases w.getLsbD i <;> simp [CharTwo.add_self_eq_zero]

/-- A shift multiplies by `x`, but for the bit shifted out. -/
theorem bytePoly_shiftLeft_one (v : Byte) :
    bytePoly (v <<< 1) + (if v.msb then X ^ 8 else 0) = X * bytePoly v := by
  have hshifted : bytePoly (v <<< 1) = ∑ i : Fin 7, if v.getLsbD i then X ^ (i.val + 1) else 0 := by
    have hbit (i : Fin 7) : (v <<< 1).getLsbD i.succ.val = v.getLsbD i := by
      simp
      omega
    simp only [bytePoly, Fin.sum_univ_succ (n := 7), hbit]
    simp
  have hproduct : X * bytePoly v =
      (∑ i : Fin 7, if v.getLsbD i then X ^ (i.val + 1) else 0) + (if v.msb then X ^ 8 else 0) := by
    rw [bytePoly, Fin.sum_univ_castSucc, mul_add, Finset.mul_sum]
    simp [BitVec.msb_eq_getLsbD_last, ← pow_succ']
  rw [hshifted, hproduct]

/-- The feedback of a round subtracts the generator when `x * v` has degree 8. -/
theorem bytePoly_crc8Round (v : Byte) :
    bytePoly (crc8Round v) + (if v.msb then crcGenerator else 0) = X * bytePoly v := by
  rw [← bytePoly_shiftLeft_one]
  cases h : v.msb with
  | true =>
    rw [crc8Round_of_msb h, bytePoly_xor, bytePoly_crcPoly, if_pos rfl, if_pos rfl, crcGenerator]
    linear_combination (X ^ 2 + X + 1 : (ZMod 2)[X]) * CharTwo.two_eq_zero (R := (ZMod 2)[X])
  | false => rw [crc8Round_of_not_msb h]; rfl

/-! Modulo the generator a round multiplies by `x`, so a byte step multiplies by `x^8`. -/

open AdjoinRoot

theorem mk_bytePoly_crc8Round (v : Byte) :
    mk crcGenerator (bytePoly (crc8Round v)) = mk crcGenerator (X * bytePoly v) := by
  rw [← bytePoly_crc8Round, map_add]
  split <;> simp

theorem mk_bytePoly_crc8Rounds (n : Nat) (v : Byte) :
    mk crcGenerator (bytePoly (crc8Rounds n v)) = mk crcGenerator (X ^ n * bytePoly v) := by
  induction n generalizing v with
  | zero => rw [pow_zero, one_mul]; rfl
  | succ n ih => rw [crc8Rounds, ih, map_mul, mk_bytePoly_crc8Round, ← map_mul, pow_succ, mul_assoc]

theorem mk_bytePoly_crc8Byte (c b : Byte) :
    mk crcGenerator (bytePoly (crc8Byte c b)) = mk crcGenerator (X ^ 8 * (bytePoly c + bytePoly b)) := by
  rw [crc8Byte, mk_bytePoly_crc8Rounds, bytePoly_xor]

theorem mk_bytePoly_crc8 (m : List Byte) :
    mk crcGenerator (bytePoly (crc8 m)) = mk crcGenerator (X ^ 8 * messagePoly m) := by
  induction m using List.reverseRecOn with
  | nil => simp [messagePoly, bytePoly]
  | append_singleton m b ih =>
    rw [crc8_concat, mk_bytePoly_crc8Byte, messagePoly_concat, map_mul, map_add, ih, ← map_add, ← map_mul]

end

/-! ### The generator as the function (R85) -/

section
variable {i : Instr} {is : List Instr} {s t : State} {m : List Byte}

theorem exec_crcInit (s : State) :
    exec .crcInit s = .next ((s.setCrcAcc Config.crcSeed).setRsp (some ⟨.ok, 0x00#8⟩)) := rfl

theorem exec_crcUpd (b : Byte) (s : State) : exec (.crcUpd b) s =
    .next ((s.setCrcAcc (crc8Byte s.crcAcc b)).setRsp (some ⟨.ok, crc8Byte s.crcAcc b⟩)) := rfl

theorem crcBytes_cons (i : Instr) (is : List Instr) : crcBytes (i :: is) = crcBytes [i] ++ crcBytes is :=
  List.filterMap_append (l := [i])

/-- A command other than `CRC_INIT` extends what the generator has seen by its byte, if it is a `CRC_UPD`, and otherwise
leaves it. -/
theorem exec_crcAcc (hi : i ≠ .crcInit) (hs : s.crcAcc = crc8 m) (h : exec i s = .next t) :
    t.crcAcc = crc8 (m ++ crcBytes [i]) := by
  cases i with
  | crcInit => exact absurd rfl hi
  | crcUpd b =>
    rw [execCrcUpd_cases h, State.setRsp_crcAcc, State.setCrcAcc_crcAcc, hs]
    exact (crc8_concat m b).symm
  | _ =>
    have hkept : t.crcAcc = s.crcAcc :=
      SubBlock.part_generator_eq_iff.mp (exec_keeps_part (g := .generator) (by simp [subBlock]) h)
    rw [hkept, hs]
    exact congrArg crc8 (List.append_nil m).symm

theorem execAll_crcAcc (his : .crcInit ∉ is) (hs : s.crcAcc = crc8 m) :
    ∃ t, execAll is s = .next t ∧ t.crcAcc = crc8 (m ++ crcBytes is) := by
  induction is generalizing s m with
  | nil => exact ⟨s, rfl, (List.append_nil m).symm ▸ hs⟩
  | cons i is ih =>
    obtain ⟨hi, his⟩ := not_or.mp (mt List.mem_cons.mpr his)
    obtain ⟨u, -, hu, -, -⟩ := exec_next i s
    rw [execAll_cons hu, crcBytes_cons, ← List.append_assoc]
    exact ih his (exec_crcAcc (Ne.symm hi) hs hu)

theorem execAll_concat_crcUpd_rsp (b : Byte) (his : .crcInit ∉ is) (hs : s.crcAcc = crc8 m) :
    ∃ t, execAll (is ++ [.crcUpd b]) s = .next t ∧ t.rsp = some ⟨.ok, crc8 (m ++ crcBytes is ++ [b])⟩ := by
  obtain ⟨u, hu, hcrc⟩ := execAll_crcAcc his hs
  rw [execAll_append hu, execAll_cons (exec_crcUpd b u), crc8_concat, ← hcrc]
  exact ⟨_, rfl, rfl⟩

end

/-! ### The statements -/

/-- Settles O20: a round's two cases by the high bit; the byte step unfolds to its eight rounds. -/
theorem crcByteIsEightRounds : Obligations.CrcByteIsEightRounds :=
  ⟨toNat_crc8Round, fun _ _ => rfl⟩

/-- Settles O21, from the recursion of the fold. -/
theorem crcOfASequence : Obligations.CrcOfASequence :=
  ⟨crc8_nil, crc8_concat⟩

/-- Settles O22: the byte step sees only `c ^^^ b`, and its rounds are linear. -/
theorem crcStepIsLinear : Obligations.CrcStepIsLinear := by
  have hleft (c b : Byte) : crc8Byte c b = crc8Byte 0x00#8 (c ^^^ b) := (crc8Byte_zero_left (c ^^^ b)).symm
  refine ⟨fun c b => ⟨hleft c b, ?_⟩, crc8Round_xor, fun x y => ?_, crc8Byte_self _⟩
  · rw [hleft c b, crc8Byte_comm]
  · rw [crc8Byte_zero_left, crc8Byte_zero_left, crc8Byte_zero_left, crc8Rounds_xor]

/-- Settles O23: a byte step ends in zero exactly on the running value itself, and a frame's last byte is its checksum's
place. -/
theorem crcLeadingZerosAndResidue : Obligations.CrcLeadingZerosAndResidue :=
  ⟨crc8_zero_cons, fun _ => crc8_concat_eq_zero_iff.mpr rfl, fun f => frameValid_iff_crc8_eq_zero f.length_toList⟩

/-- Settles O24: the byte step is injective on a finite type, and the flipped byte differs from the message's. -/
theorem crcDetectsEverySingleBitError : Obligations.CrcDetectsEverySingleBitError := by
  refine ⟨fun c => (crc8Byte_injective c).bijective_of_finite, fun m i k h hk hcrc => ?_⟩
  have hflip : m[i] ^^^ (0x01#8 <<< k) = m[i] ^^^ 0x00#8 :=
    ((crc8_set_eq_iff h).mp hcrc).trans BitVec.xor_zero.symm
  exact one_shiftLeft_ne_zero hk ((BitVec.xor_right_inj _).mp hflip)

/-- Settles O25: modulo the generator polynomial, `crc8` is `x^8` times the message. -/
theorem crcIsThePolynomialRemainder : Obligations.CrcIsThePolynomialRemainder := by
  intro m
  exact AdjoinRoot.mk_eq_mk.mp (mk_bytePoly_crc8 m)

/-- Settles O28, by what `CRC_ACC` is after each command; `CRC_INIT` and the reset both start it at `crc8 []`. -/
theorem generatorAgreesWithTheFunction : Obligations.GeneratorAgreesWithTheFunction := by
  refine ⟨fun is s his => ?_, fun is b s his => ?_, fun is his => ?_, fun is b his => ?_⟩
  · rw [execAll_cons (exec_crcInit s)]
    exact execAll_crcAcc (m := []) his rfl
  · rw [execAll_cons (exec_crcInit s)]
    exact execAll_concat_crcUpd_rsp (m := []) b his rfl
  · exact execAll_crcAcc (m := []) his rfl
  · exact execAll_concat_crcUpd_rsp (m := []) b his rfl

/-- Settles O26: the meaning's own equation, the command's two fields, and the decoder's second reason. -/
theorem crcInitLoadsTheSeed : Obligations.CrcInitLoadsTheSeed := by
  refine ⟨exec_crcInit, rfl, fun a ha => ?_⟩
  rw [decode_eq_nonzeroArg_iff, opField_append, argField_append]
  exact ⟨.inr (.inl rfl), ha⟩

/-- Settles O27: the meaning's own equation, and the words 200 to 2FF as the command's encodings. -/
theorem crcUpdRunsOneByte : Obligations.CrcUpdRunsOneByte :=
  fun b s => ⟨exec_crcUpd b s, decode_encode (.crcUpd b)⟩

end Sys2Proof.Machine

/-! The Frame Buffer (41_frame_buffer.md): the equation of `FB_ARM` and of `FB_PUSH` in each of their two cases (R101, R102),
what `COMPLETE` then is (R26), and which fields each of the two commands can write. -/

namespace Sys2Proof.Machine

section
variable {s t : State} {b n : Byte}

/-! ### The tests: a zero capacity, a complete buffer, a buffer too small for a frame -/

theorem capacity_eq_zero_iff (h : n.toNat ≤ 10) : n.setWidth 4 = 0#4 ↔ n = 0x00#8 := by
  rw [← BitVec.toNat_inj, ← BitVec.toNat_inj, toNat_capacity h]
  rfl

theorem fbComplete_iff (s : State) : fbComplete s = true ↔ s.fbPos = s.fbCap :=
  beq_iff_eq

theorem frameReady_eq_false_of_capacity (hn : n.toNat < 10) (hcap : s.fbCap = n.setWidth 4) : frameReady s = false := by
  rw [Bool.eq_false_iff, ne_eq, frameReady_iff, hcap]
  rintro ⟨hten, -⟩
  have hval : n.toNat = 10 := (toNat_capacity hn.le).symm.trans (congrArg BitVec.toNat hten)
  exact hn.ne hval

/-! ### The meanings, case by case (R101, R102, R121) -/

theorem exec_fbArm_of_le (h : n.toNat ≤ 10) :
    exec (.fbArm n) s = .next (((s.setFbPos 0#4).setFbCap (n.setWidth 4)).setRsp (some ⟨.ok, 0x00#8⟩)) := by
  change execFbArm n s = _
  rw [execFbArm, capacityOperand_legal h]
  rfl

theorem exec_fbArm_of_gt (h : 10 < n.toNat) :
    exec (.fbArm n) s = .next (s.setRsp (some ⟨.errBadArg, 0x00#8⟩)) := by
  change execFbArm n s = _
  rw [execFbArm, capacityOperand_refused h]
  rfl

/-- The other case, a push that is stored, is `exec_fbPush_of_ne`. -/
theorem exec_fbPush_of_eq (h : s.fbPos = s.fbCap) :
    exec (.fbPush b) s = .next (s.setRsp (some ⟨.fbDropped, zext8 s.fbPos⟩)) :=
  if_pos h

theorem exec_kpParse_of_not_ready (h : frameReady s = false) :
    exec .kpParse s = .next (s.setRsp (some ⟨.kpNotReady, zext8 s.fbPos⟩)) :=
  if_neg (Bool.eq_false_iff.mp h)

/-! ### What `FB_ARM` and `FB_PUSH` can write -/

theorem exec_fbArm_writes (h : exec (.fbArm n) s = .next t) :
    t = { s with fbPos := t.fbPos, fbCap := t.fbCap, rsp := t.rsp } := by
  obtain ⟨-, rfl⟩ | ⟨-, rfl⟩ := execFbArm_cases h <;> rfl

theorem exec_fbPush_writes (h : exec (.fbPush b) s = .next t) :
    t = { s with fbPos := t.fbPos, fbData := t.fbData, rsp := t.rsp } := by
  obtain ⟨-, rfl⟩ | ⟨-, rfl⟩ := execFbPush_cases h <;> rfl

/-- A push leaves every cell but the one at `FB_POS`, and on a complete buffer that one too. -/
theorem exec_fbPush_keeps_cell (h : exec (.fbPush b) s = .next t) (k : Fin 10)
    (hk : k.val ≠ s.fbPos.toNat ∨ s.fbPos = s.fbCap) : t.fbData[k.val] = s.fbData[k.val] := by
  obtain ⟨-, rfl⟩ | ⟨hne, rfl⟩ := execFbPush_cases h
  · rfl
  · have hother : s.fbPos.toNat ≠ k.val := (hk.resolve_right hne).symm
    change (storeFbData s.fbPos.toNat b s).fbData[k.val] = s.fbData[k.val]
    rw [storeFbData_getElem, if_neg hother]

end

/-! ### The statements -/

/-- Settles O29: the two equations of `FB_ARM`; `COMPLETE` compares position 0 with the new capacity, and a capacity below
10 fails the parser's readiness test at every position. -/
theorem fbArmSetsPositionAndCapacity : Obligations.FbArmSetsPositionAndCapacity := by
  intro n s
  refine ⟨exec_fbArm_of_le, exec_fbArm_of_gt, fun t hn h => ?_, fun hn t hcap => ?_, decode_encode (.fbArm n)⟩
  · cases (exec_fbArm_of_le hn).symm.trans h
    rw [fbComplete_iff, eq_comm]
    exact capacity_eq_zero_iff hn
  · exact exec_kpParse_of_not_ready (frameReady_eq_false_of_capacity hn hcap)

/-- Settles O30: the two equations of `FB_PUSH`; below position 10 the store is the plain write of the cell. -/
theorem fbPushStoresOrDrops : Obligations.FbPushStoresOrDrops := by
  intro b s
  refine ⟨exec_fbPush_of_eq, fun hlt hne => ?_, fun t hne h => ?_, decode_encode (.fbPush b)⟩
  · rw [exec_fbPush_of_ne hne, storeFbData_of_lt _ _ _ hlt]
    rfl
  · cases (exec_fbPush_of_ne hne).symm.trans h
    exact fbComplete_iff _

/-- Settles O55: an arm, refused or not, writes at most `FB_POS`, `FB_CAP` and the response. -/
theorem frameOfFbArm : Obligations.FrameOfFbArm := by
  intro n s t h
  rw [exec_fbArm_writes h]
  exact ⟨rfl, rfl, rfl, rfl, rfl, fun _ => rfl, fun _ => rfl, fun _ => rfl⟩

/-- Settles O56: the fields by the push's write set, the buffer's cells one at a time. -/
theorem frameOfFbPush : Obligations.FrameOfFbPush := by
  intro b s t h
  have hcells := exec_fbPush_keeps_cell h
  rw [exec_fbPush_writes h]
  exact ⟨rfl, rfl, rfl, rfl, rfl, rfl, hcells, fun _ => rfl, fun _ => rfl⟩

end Sys2Proof.Machine

/-! The KISS frame Parser (42_kiss_parser.md): the equation of `KP_PARSE` in each of its cases (R121), what a complete
buffer that holds a frame is, its receipt from arm to parse (R120, R124, R127), and the two readings of a field (R128). -/

namespace Sys2Proof.Machine

section
variable {s t : State}

/-! ### `KP_PARSE` in any state (R121) -/

/-- The case of a buffer that is not ready is `exec_kpParse_of_not_ready`. -/
theorem exec_kpParse_of_valid (hr : frameReady s = true) (hv : frameValid (frameRead s).1 = true) :
    exec .kpParse s = .next ((latchFrame (s.setDraws (frameRead s).2)).setRsp
      (some ⟨.ok, crc8 ((frameRead s).1.take 9)⟩)) :=
  (if_pos hr).trans (if_pos hv)

theorem exec_kpParse_of_invalid (hr : frameReady s = true) (hv : frameValid (frameRead s).1 = false) :
    exec .kpParse s = .next ((s.setDraws (frameRead s).2).setRsp
      (some ⟨.kpCrcFail, crc8 ((frameRead s).1.take 9)⟩)) :=
  (if_pos hr).trans (if_neg (Bool.eq_false_iff.mp hv))

/-- A parse computes its own checksum of the buffer: it commutes with any change of the generator's register. -/
theorem exec_kpParse_setCrcAcc (x : Byte) (h : exec .kpParse s = .next t) :
    exec .kpParse (s.setCrcAcc x) = .next (t.setCrcAcc x) := by
  obtain ⟨hr, rfl⟩ | ⟨hr, hv, rfl⟩ | ⟨hr, hv, rfl⟩ := execKpParse_cases h
  · exact exec_kpParse_of_not_ready (s := s.setCrcAcc x) hr
  · exact exec_kpParse_of_valid (s := s.setCrcAcc x) hr hv
  · exact exec_kpParse_of_invalid (s := s.setCrcAcc x) hr hv

theorem exec_kpParse_writes (h : exec .kpParse s = .next t) :
    t = { s with kFrame := t.kFrame, draws := t.draws, rsp := t.rsp } := by
  obtain ⟨-, rfl⟩ | ⟨-, -, rfl⟩ | ⟨-, -, rfl⟩ := execKpParse_cases h <;> rfl

theorem exec_kpParse_keeps_kFrame (h : exec .kpParse s = .next t) (hok : ∀ d, t.rsp ≠ some ⟨.ok, d⟩) :
    t.kFrame = s.kFrame := by
  obtain ⟨-, rfl⟩ | ⟨-, -, rfl⟩ | ⟨-, -, rfl⟩ := execKpParse_cases h
  · rfl
  · exact absurd rfl (hok _)
  · rfl

end

/-! ### A complete buffer that holds a frame (R31 (e), R121 corner case (a)) -/

/-- The buffer is complete, for ten bytes, and holds those of `f`. -/
structure State.HoldsFrame (f : Vector Byte 10) (s : State) : Prop where
  cap : s.fbCap = 10#4
  pos : s.fbPos = 10#4
  data : s.fbData = f.map some

section
variable {s t : State} {f : Vector Byte 10}

/-- A ready buffer has its ten cells written, so it holds some frame. -/
theorem State.FbFilled.exists_holdsFrame (hs : s.FbFilled) (hcap : s.fbCap = 10#4) (hpos : s.fbPos = 10#4) :
    ∃ f, s.HoldsFrame f := by
  have hwritten (k : Fin 10) : s.fbData[k.val].isSome = true := hs k (by rw [hpos]; exact k.isLt)
  refine ⟨Vector.ofFn fun k => s.fbData[k.val].get (hwritten k), hcap, hpos, ?_⟩
  ext k hk : 1
  simp

theorem State.HoldsFrame.ready (hs : s.HoldsFrame f) : frameReady s = true :=
  (frameReady_iff s).mpr ⟨hs.cap, hs.pos⟩

theorem State.HoldsFrame.frameRead_eq (hs : s.HoldsFrame f) : frameRead s = (f.toList, s.draws) := by
  rw [frameRead, hs.data, Vector.toList_map, readCells_of_written]

theorem State.HoldsFrame.latchFrame_kFrame (hs : s.HoldsFrame f) :
    (latchFrame s).kFrame = Vector.ofFn fun i : Fin 9 => some f[i.val] := by
  ext k hk : 1
  rw [latchFrame_getElem]
  simp [hs.data]

theorem frameValid_toList_iff (f : Vector Byte 10) : frameValid f.toList = true ↔ f[9] = crc8 (f.toList.take 9) :=
  frameValid_iff f.toList f.length_toList

theorem State.HoldsFrame.exec_kpParse_of_crc_eq (hs : s.HoldsFrame f) (hf : f[9] = crc8 (f.toList.take 9)) :
    exec .kpParse s = .next ((latchFrame s).setRsp (some ⟨.ok, f[9]⟩)) := by
  have hv : frameValid (frameRead s).1 = true := by rw [hs.frameRead_eq]; exact (frameValid_toList_iff f).mpr hf
  rw [exec_kpParse_of_valid hs.ready hv, hs.frameRead_eq, hf]
  rfl

theorem State.HoldsFrame.exec_kpParse_of_crc_ne (hs : s.HoldsFrame f) (hf : f[9] ≠ crc8 (f.toList.take 9)) :
    exec .kpParse s = .next (s.setRsp (some ⟨.kpCrcFail, crc8 (f.toList.take 9)⟩)) := by
  have hv : frameValid (frameRead s).1 = false := by
    rw [hs.frameRead_eq]
    exact Bool.eq_false_iff.mpr (mt (frameValid_toList_iff f).mp hf)
  rw [exec_kpParse_of_invalid hs.ready hv, hs.frameRead_eq]
  rfl

/-- Where a ready buffer has its cells written, a parse draws no free byte. -/
theorem exec_kpParse_keeps_draws (hs : s.FbFilled) (h : exec .kpParse s = .next t) : t.draws = s.draws := by
  have hread (hr : frameReady s = true) : (frameRead s).2 = s.draws := by
    obtain ⟨hcap, hpos⟩ := (frameReady_iff s).mp hr
    obtain ⟨f, hf⟩ := hs.exists_holdsFrame hcap hpos
    rw [hf.frameRead_eq]
  obtain ⟨-, rfl⟩ | ⟨hr, -, rfl⟩ | ⟨hr, -, rfl⟩ := execKpParse_cases h
  · rfl
  · exact hread hr
  · exact hread hr

/-- A parse does not consume the frame: repeated, it answers the same and writes the same (R121 corner case (b)). -/
theorem exec_kpParse_repeats (hs : s.FbFilled) (h : exec .kpParse s = .next t) : exec .kpParse t = .next t := by
  cases hr : frameReady s with
  | false =>
    cases (exec_kpParse_of_not_ready hr).symm.trans h
    exact exec_kpParse_of_not_ready (s := s.setRsp _) hr
  | true =>
    obtain ⟨hcap, hpos⟩ := (frameReady_iff s).mp hr
    obtain ⟨f, hf⟩ := hs.exists_holdsFrame hcap hpos
    have hheld : t.HoldsFrame f := by
      rw [exec_kpParse_writes h]
      exact ⟨hf.cap, hf.pos, hf.data⟩
    by_cases hcrc : f[9] = crc8 (f.toList.take 9)
    · cases (hf.exec_kpParse_of_crc_eq hcrc).symm.trans h
      exact hheld.exec_kpParse_of_crc_eq hcrc
    · cases (hf.exec_kpParse_of_crc_ne hcrc).symm.trans h
      exact hheld.exec_kpParse_of_crc_ne hcrc

end

/-! ### Receiving a frame: arm, ten pushes, parse (R120, R124) -/

section
variable {i : Instr} {is : List Instr} {s t : State} {f : Vector Byte 10}

theorem exec_keeps_kFrame (hi : i ≠ .kpParse) (h : exec i s = .next t) : t.kFrame = s.kFrame := by
  obtain ⟨-, -, hframe⟩ | ⟨-, -, hframe⟩ | ⟨hparse, -⟩ | ⟨-, -, -, -, hframe⟩ := exec_buffer_cases h
  · exact hframe
  · exact hframe
  · exact absurd hparse hi
  · exact hframe

theorem execAll_keeps_kFrame (his : .kpParse ∉ is) (h : execAll is s = .next t) : t.kFrame = s.kFrame := by
  induction is generalizing s with
  | nil => cases h; rfl
  | cons i is ih =>
    obtain ⟨hi, his⟩ := not_or.mp (mt List.mem_cons.mpr his)
    obtain ⟨u, -, hu, -, -⟩ := exec_next i s
    rw [execAll_cons hu] at h
    exact (ih his h).trans (exec_keeps_kFrame (Ne.symm hi) hu)

theorem pushBytes_map_fbPush (bs : List Byte) : pushBytes (bs.map .fbPush) = bs := by
  simp [pushBytes, List.filterMap_map]

theorem State.HoldsPushed.holdsFrame (hs : s.HoldsPushed 10 f.toList) : s.HoldsFrame f := by
  obtain ⟨hcap, hpos, hcell⟩ := hs
  rw [f.length_toList, Nat.min_self] at hpos
  refine ⟨BitVec.eq_of_toNat_eq hcap, BitVec.eq_of_toNat_eq hpos, ?_⟩
  ext k hk : 1
  simp [hcell ⟨k, hk⟩ (hpos.symm ▸ hk), hk]

theorem execAll_arm_push_frame (f : Vector Byte 10) (s : State) :
    ∃ t, execAll (.fbArm 0x0A#8 :: f.toList.map .fbPush) s = .next t ∧ t.HoldsFrame f ∧ t.kFrame = s.kFrame := by
  obtain ⟨u, -, hu, -, -⟩ := exec_next (.fbArm 0x0A#8) s
  obtain ⟨t, ht, hheld⟩ := execAll_holdsPushed (is := f.toList.map .fbPush) (List.forall_mem_map.mpr fun _ _ => rfl)
    (execFbArm_holdsPushed (c := 0x0A#8) (by decide) hu)
  rw [List.nil_append, pushBytes_map_fbPush] at hheld
  rw [← execAll_cons hu] at ht
  exact ⟨t, ht, hheld.holdsFrame, execAll_keeps_kFrame (by simp) ht⟩

theorem execAll_receive_of_crc_eq (s : State) (hf : f[9] = crc8 (f.toList.take 9)) :
    ∃ t, execAll (.fbArm 0x0A#8 :: (f.toList.map .fbPush ++ [.kpParse])) s = .next t ∧
      t.rsp = some ⟨.ok, f[9]⟩ ∧ t.kFrame = Vector.ofFn fun i : Fin 9 => some f[i.val] := by
  obtain ⟨u, hu, hheld, -⟩ := execAll_arm_push_frame f s
  rw [← List.cons_append, execAll_append hu, execAll_cons (hheld.exec_kpParse_of_crc_eq hf)]
  exact ⟨_, rfl, rfl, hheld.latchFrame_kFrame⟩

theorem execAll_receive_of_crc_ne (s : State) (hf : f[9] ≠ crc8 (f.toList.take 9)) :
    ∃ t, execAll (.fbArm 0x0A#8 :: (f.toList.map .fbPush ++ [.kpParse])) s = .next t ∧
      t.rsp = some ⟨.kpCrcFail, crc8 (f.toList.take 9)⟩ ∧ t.kFrame = s.kFrame := by
  obtain ⟨u, hu, hheld, hframe⟩ := execAll_arm_push_frame f s
  rw [← List.cons_append, execAll_append hu, execAll_cons (hheld.exec_kpParse_of_crc_ne hf)]
  exact ⟨_, rfl, rfl, hframe⟩

/-- The five views of the latched bytes; a pair of cells joins with its first the more significant (R43). -/
theorem fields_of_kFrame (h : t.kFrame = Vector.ofFn fun i : Fin 9 => some f[i.val]) :
    kTemp t = some f[0] ∧ kVolt t = some (f[1] ++ f[2]) ∧ kCurr t = some (f[3] ++ f[4]) ∧
      kCons t = some (f[5] ++ f[6]) ∧ kRpm t = some (f[7] ++ f[8]) := by
  simp [kTemp, kVolt, kCurr, kCons, kRpm, h, cells16, be16]

/-- Zero bytes leave the checksum at its seed. -/
theorem crc8_replicate_zero (n : Nat) : crc8 (List.replicate n 0x00#8) = 0x00#8 := by
  induction n with
  | zero => rfl
  | succ n ih => rw [List.replicate_succ, crc8_zero_cons, ih]

end

/-! ### The two readings of a field (R128) -/

section
variable {w : Nat} (g : Signedness) (v : BitVec w)

theorem ofInt_fieldValue : BitVec.ofInt w (fieldValue g v) = v := by
  cases g with
  | zext =>
    change BitVec.ofInt w v.toNat = v
    rw [BitVec.ofInt_natCast, BitVec.ofNat_toNat, BitVec.setWidth_eq]
  | sext => exact BitVec.ofInt_toInt

theorem fieldValue_sext_eq : fieldValue .sext v = fieldValue .zext v - if v.msb then 2 ^ w else 0 := by
  change v.toInt = (v.toNat : Int) - _
  rw [BitVec.toInt_eq_msb_cond]
  cases v.msb <;> simp

end

/-! ### The statements -/

/-- Settles O34: the equations of `KP_PARSE`, with `State.HoldsFrame` for a ready buffer. -/
theorem kpParseValidatesAndLatches : Obligations.KpParseValidatesAndLatches := by
  intro s
  refine ⟨fun hno => ?_, fun f hcap hpos hdata => ⟨fun hf => ?_, fun hf => ?_⟩, rfl, fun a ha => ?_,
    fun hs hcap hpos => ?_, fun hs t h => ?_⟩
  · exact exec_kpParse_of_not_ready (Bool.eq_false_iff.mpr (mt (frameReady_iff s).mp hno))
  · have hheld : s.HoldsFrame f := ⟨hcap, hpos, hdata⟩
    rw [hheld.exec_kpParse_of_crc_eq hf.symm, ← hheld.latchFrame_kFrame]
    rfl
  · exact State.HoldsFrame.exec_kpParse_of_crc_ne ⟨hcap, hpos, hdata⟩ (Ne.symm hf)
  · rw [decode_eq_nonzeroArg_iff, opField_append, argField_append]
    exact ⟨.inr (.inr rfl), ha⟩
  · obtain ⟨-, -, hfill, -, -⟩ := hs
    obtain ⟨f, hheld⟩ := State.FbFilled.exists_holdsFrame hfill hcap hpos
    exact ⟨f, hheld.data⟩
  · obtain ⟨-, -, hfill, -, -⟩ := hs
    exact exec_kpParse_repeats hfill h

/-- Settles O35, by whether the frame's last byte is the checksum of the others. -/
theorem frameYieldsBigEndianFields : Obligations.FrameYieldsBigEndianFields := by
  intro f s
  by_cases hf : f[9] = crc8 (f.toList.take 9)
  · obtain ⟨t, ht, hrsp, hframe⟩ := execAll_receive_of_crc_eq s hf
    exact ⟨t, ht, fun _ => ⟨hrsp, fields_of_kFrame hframe⟩, absurd hf⟩
  · obtain ⟨t, ht, hfail⟩ := execAll_receive_of_crc_ne s hf
    exact ⟨t, ht, fun hf' => absurd hf' hf, fun _ => hfail⟩

/-- Settles O36: `CRC_ACC` is not in the parse's write set, and the parse commutes with any change of it. -/
theorem kpParseIgnoresTheAccumulator : Obligations.KpParseIgnoresTheAccumulator := by
  intro s t x h
  refine ⟨?_, exec_kpParse_setCrcAcc x h⟩
  rw [exec_kpParse_writes h]

/-- Settles O37: the receipt of a valid frame, at the frame of ten zero bytes, whose checksum is the seed. -/
theorem allZeroFrameIsValid : Obligations.AllZeroFrameIsValid := by
  intro s
  have hvalid : (Vector.replicate 10 0x00#8)[9] = crc8 ((Vector.replicate 10 0x00#8).toList.take 9) := by
    rw [Vector.toList_replicate, List.take_replicate, crc8_replicate_zero, Vector.getElem_replicate]
  obtain ⟨t, ht, hrsp, hframe⟩ := execAll_receive_of_crc_eq s hvalid
  rw [Vector.toList_replicate, List.map_replicate] at ht
  rw [Vector.getElem_replicate] at hrsp
  simp only [Vector.getElem_replicate] at hframe
  exact ⟨t, ht, hrsp, hframe⟩

/-- Settles O57: the parse's write set, and when it leaves `K_FRAME` and the draw counter. -/
theorem frameOfKpParse : Obligations.FrameOfKpParse := by
  intro s t h
  have hdraws : s.Inv → t.draws = s.draws := fun ⟨_, _, hfill, _, _⟩ => exec_kpParse_keeps_draws hfill h
  have hframe := exec_kpParse_keeps_kFrame h
  rw [exec_kpParse_writes h]
  exact ⟨rfl, rfl, rfl, rfl, rfl, rfl, hdraws, hframe, fun _ => rfl, fun _ => rfl⟩

/-- Settles O38: both readings are congruent to the bits modulo `2^w`, and the signed one is lower by `2^w` exactly when
the top bit is set. -/
theorem signednessReadsTheSameBits : Obligations.SignednessReadsTheSameBits := by
  intro w v
  refine ⟨ofInt_fieldValue .zext v, ofInt_fieldValue .sext v, Int.natCast_nonneg _, ?_, fun hmsb => ?_, fun hmsb => ?_⟩
  · change (v.toNat : Int) < 2 ^ w
    exact_mod_cast v.isLt
  · rw [fieldValue_sext_eq, hmsb]
    exact sub_zero _
  · rw [fieldValue_sext_eq, hmsb]
    rfl

end Sys2Proof.Machine

/-! The Hobbywing Resynchronizer (43_hobbywing_resync.md): the equation of `HR_BYTE` in each of its cases (R142 to R147),
the graph of its two counters (R148), and its runs over a byte stream: the skip after a collision, the receipt of a packet
(R150), and what is neither announced nor stored (R149, R151). -/

namespace Sys2Proof.Machine

section
variable {s t : State} {b : Byte}

/-! ### `HR_BYTE`, case by case (R142 to R147) -/

theorem exec_hrByte_of_skipping (h : 0 < s.hrSkip.toNat) :
    exec (.hrByte b) s = .next ((s.setHrSkip (s.hrSkip - 1#4)).setRsp (some ⟨.hrSkipped, zext8 (s.hrSkip - 1#4)⟩)) :=
  if_pos h

theorem not_skipping_of_eq_zero (hskip : s.hrSkip = 0#4) : ¬ 0 < s.hrSkip.toNat := by
  simp [hskip]

theorem exec_hrByte_of_sync (hskip : s.hrSkip = 0#4) (hcnt : s.hrCnt = 0#5) :
    exec (.hrByte 0x9B#8) s = .next ((s.setHrCnt 1#5).setRsp (some ⟨.hrSync, 0x01#8⟩)) :=
  (if_neg (not_skipping_of_eq_zero hskip)).trans (if_pos ⟨hcnt, rfl⟩)

theorem exec_hrByte_of_collision (hskip : s.hrSkip = 0#4) (hcnt : s.hrCnt = 1#5) :
    exec (.hrByte 0x9B#8) s =
      .next (((s.setHrCnt 0#5).setHrSkip 11#4).setRsp (some ⟨.hrCollision, 0x0B#8⟩)) := by
  have hidle : ¬ (s.hrCnt = 0#5 ∧ 0x9B#8 = Config.hwSentinel) := by simp [hcnt]
  exact (if_neg (not_skipping_of_eq_zero hskip)).trans ((if_neg hidle).trans (if_pos ⟨hcnt, rfl⟩))

theorem exec_hrByte_of_idle (hskip : s.hrSkip = 0#4) (hcnt : s.hrCnt = 0#5) (hb : b ≠ 0x9B#8) :
    exec (.hrByte b) s = .next (s.setRsp (some ⟨.hrIdle, 0x00#8⟩)) := by
  have hsync : ¬ (s.hrCnt = 0#5 ∧ b = Config.hwSentinel) := fun h => hb h.2
  have hcol : ¬ (s.hrCnt = 1#5 ∧ b = Config.hwSentinel) := fun h => hb h.2
  have hpacket : ¬ 1 ≤ s.hrCnt.toNat := by simp [hcnt]
  exact (if_neg (not_skipping_of_eq_zero hskip)).trans ((if_neg hsync).trans ((if_neg hcol).trans (if_neg hpacket)))

/-- In packet mode, a collision apart, the byte is stored, whatever it is. -/
theorem exec_hrByte_of_packet (hskip : s.hrSkip = 0#4) (hcnt : 1 ≤ s.hrCnt.toNat)
    (hcol : ¬ (s.hrCnt = 1#5 ∧ b = 0x9B#8)) : exec (.hrByte b) s =
      if s.hrCnt.toNat = 18 then
        respond .hrPktReady 0x00#8 ((storeHpData (s.hrCnt.toNat - 1) b s).setHrCnt 0#5)
      else
        respond .hrStored (zext8 (s.hrCnt + 1#5))
          ((storeHpData (s.hrCnt.toNat - 1) b s).setHrCnt (s.hrCnt + 1#5)) := by
  have hsync : ¬ (s.hrCnt = 0#5 ∧ b = Config.hwSentinel) := fun h => by simp [h.1] at hcnt
  exact (if_neg (not_skipping_of_eq_zero hskip)).trans ((if_neg hsync).trans ((if_neg hcol).trans (if_pos hcnt)))

theorem exec_hrByte_of_store (hskip : s.hrSkip = 0#4) (hcnt : 1 ≤ s.hrCnt.toNat ∧ s.hrCnt.toNat ≤ 17)
    (hcol : ¬ (s.hrCnt = 1#5 ∧ b = 0x9B#8)) : exec (.hrByte b) s =
      .next (((storeHpData (s.hrCnt.toNat - 1) b s).setHrCnt (s.hrCnt + 1#5)).setRsp
        (some ⟨.hrStored, zext8 (s.hrCnt + 1#5)⟩)) :=
  (exec_hrByte_of_packet hskip hcnt.1 hcol).trans (if_neg (by omega))

theorem exec_hrByte_of_full (hskip : s.hrSkip = 0#4) (hcnt : s.hrCnt = 18#5) :
    exec (.hrByte b) s =
      .next (((storeHpData 17 b s).setHrCnt 0#5).setRsp (some ⟨.hrPktReady, 0x00#8⟩)) := by
  rw [exec_hrByte_of_packet hskip (by simp [hcnt]) (by simp [hcnt]), hcnt]
  rfl

/-! ### The two counters, the packet cells and the ready response (R148) -/

/-- The transition that the byte `b` makes from `HR_SKIP = S` and `HR_CNT = N`: the table of R148. -/
def resyncNext (b : Byte) (S N : Nat) : Nat × Nat :=
  if 1 ≤ S then (S - 1, 0)
  else if N = 0 then (if b = 0x9B#8 then (0, 1) else (0, 0))
  else if N = 1 then (if b = 0x9B#8 then (11, 0) else (0, 2))
  else if N ≤ 17 then (0, N + 1)
  else (0, 0)

theorem exec_hrByte_counters (hs : s.HrInRange) (h : exec (.hrByte b) s = .next t) :
    (t.hrSkip.toNat, t.hrCnt.toNat) = resyncNext b s.hrSkip.toNat s.hrCnt.toNat := by
  obtain ⟨hle, -, hzero⟩ := hs
  obtain ⟨hpos, rfl⟩ | ⟨hskip, hcnt, rfl, rfl⟩ | ⟨hskip, hcnt, rfl, rfl⟩ | ⟨hskip, h1, h18, hcol, rfl⟩ |
    ⟨hskip, hcnt, rfl⟩ | ⟨hskip, hcnt, hb, rfl⟩ := execHrByte_cases h
  · have hdec : (s.hrSkip - 1#4).toNat = s.hrSkip.toNat - 1 := by bv_omega
    simp [resyncNext, hdec, hzero hpos, Nat.succ_le_of_lt hpos]
  · simp [resyncNext, hskip, hcnt]
  · simp [resyncNext, hskip, hcnt]
  · have hlt : s.hrCnt.toNat < 18 := Nat.lt_of_le_of_ne hle fun hc => h18 (BitVec.eq_of_toNat_eq hc)
    have hinc : (s.hrCnt + 1#5).toNat = s.hrCnt.toNat + 1 := by bv_omega
    have hne : s.hrCnt.toNat = 1 → b ≠ 0x9B#8 := fun hc hb => hcol ⟨BitVec.eq_of_toNat_eq hc, hb⟩
    change (s.hrSkip.toNat, (s.hrCnt + 1#5).toNat) = _
    rw [hinc, hskip]
    grind [resyncNext]
  · simp [resyncNext, hskip, hcnt]
  · simp [resyncNext, hskip, hcnt, hb]

/-- The store of packet mode, cell by cell. -/
theorem storeHpData_hrCnt_getElem (hskip : s.hrSkip = 0#4) (hcnt : 1 ≤ s.hrCnt.toNat)
    (hcol : ¬ (s.hrCnt = 1#5 ∧ b = 0x9B#8)) (k : Fin 18) :
    (storeHpData (s.hrCnt.toNat - 1) b s).hpData[k.val] =
      if s.hrSkip = 0#4 ∧ s.hrCnt.toNat = k.val + 1 ∧ ¬ (s.hrCnt = 1#5 ∧ b = 0x9B#8) then some b
      else s.hpData[k.val] := by
  have hcell : s.hrCnt.toNat - 1 = k.val ↔ s.hrCnt.toNat = k.val + 1 := by omega
  rw [storeHpData_getElem]
  simp only [hskip, hcol, hcell, not_false_eq_true, and_true, true_and]

/-- The byte goes to cell `HR_CNT - 1` when it is stored, and no other cell changes. -/
theorem exec_hrByte_cell (h : exec (.hrByte b) s = .next t) (k : Fin 18) : t.hpData[k.val] =
    if s.hrSkip = 0#4 ∧ s.hrCnt.toNat = k.val + 1 ∧ ¬ (s.hrCnt = 1#5 ∧ b = 0x9B#8) then some b
    else s.hpData[k.val] := by
  obtain ⟨hpos, rfl⟩ | ⟨-, hcnt, -, rfl⟩ | ⟨-, hcnt, hb, rfl⟩ | ⟨hskip, h1, -, hcol, rfl⟩ |
    ⟨hskip, hcnt, rfl⟩ | ⟨-, hcnt, -, rfl⟩ := execHrByte_cases h
  · exact (if_neg fun hc => not_skipping_of_eq_zero hc.1 hpos).symm
  · exact (if_neg fun hc => by simp [hcnt] at hc).symm
  · exact (if_neg fun ⟨_, _, hcol⟩ => hcol ⟨hcnt, hb⟩).symm
  · exact storeHpData_hrCnt_getElem hskip h1 hcol k
  · have hstore := storeHpData_hrCnt_getElem (b := b) hskip (by simp [hcnt]) (by simp [hcnt]) k
    rwa [show s.hrCnt.toNat - 1 = 17 by rw [hcnt]; rfl] at hstore
  · exact (if_neg fun hc => by simp [hcnt] at hc).symm

theorem exec_hrByte_ready_iff (h : exec (.hrByte b) s = .next t) :
    (∃ d, t.rsp = some ⟨.hrPktReady, d⟩) ↔ s.hrSkip = 0#4 ∧ s.hrCnt = 18#5 := by
  obtain ⟨hpos, rfl⟩ | ⟨-, hcnt, -, rfl⟩ | ⟨-, hcnt, -, rfl⟩ | ⟨-, -, h18, -, rfl⟩ | ⟨hskip, hcnt, rfl⟩ |
    ⟨-, hcnt, -, rfl⟩ := execHrByte_cases h
  · exact iff_of_false (by simp) fun hc => not_skipping_of_eq_zero hc.1 hpos
  · exact iff_of_false (by simp) (by simp [hcnt])
  · exact iff_of_false (by simp) (by simp [hcnt])
  · exact iff_of_false (by simp) fun hc => h18 hc.2
  · exact iff_of_true ⟨_, rfl⟩ ⟨hskip, hcnt⟩
  · exact iff_of_false (by simp) (by simp [hcnt])

theorem exec_hrByte_hrCnt_le (h : exec (.hrByte b) s = .next t) : t.hrCnt.toNat ≤ s.hrCnt.toNat + 1 := by
  obtain ⟨-, rfl⟩ | ⟨-, -, -, rfl⟩ | ⟨-, -, -, rfl⟩ | ⟨-, -, -, -, rfl⟩ | ⟨-, -, rfl⟩ | ⟨-, -, -, rfl⟩ :=
    execHrByte_cases h
  · exact Nat.le_succ _
  · simp
  · simp
  · change (s.hrCnt + 1#5).toNat ≤ s.hrCnt.toNat + 1
    bv_omega
  · simp
  · exact Nat.le_succ _

end

/-! ### Runs: where some commands lead, and what they answer -/

/-- From `s` the commands `is` lead to `t` and give the responses `rs`, in order. -/
structure Runs (is : List Instr) (s t : State) (rs : List Response) : Prop where
  execAll_eq : execAll is s = .next t
  responses_eq : responses is s = rs

section
variable {i : Instr} {is js : List Instr} {s t u : State} {r : Response} {rs qs : List Response}

theorem Runs.nil (s : State) : Runs [] s s [] := ⟨rfl, rfl⟩

theorem Runs.cons (h : exec i s = .next (u.setRsp (some r))) (hrun : Runs is (u.setRsp (some r)) t rs) :
    Runs (i :: is) s t (r :: rs) where
  execAll_eq := (execAll_cons h).trans hrun.execAll_eq
  responses_eq := by rw [responses_cons h, hrun.responses_eq]; rfl

theorem Runs.responses_append (h : Runs is s t rs) (js : List Instr) :
    responses (is ++ js) s = rs ++ responses js t := by
  obtain ⟨hstate, rfl⟩ := h
  induction is generalizing s with
  | nil => cases hstate; rfl
  | cons i is ih =>
    obtain ⟨u, -, hu, -, -⟩ := exec_next i s
    rw [execAll_cons hu] at hstate
    rw [List.cons_append, responses_cons hu, responses_cons hu, ih hstate, List.append_assoc]

theorem Runs.append (h : Runs is s t rs) (h' : Runs js t u qs) : Runs (is ++ js) s u (rs ++ qs) where
  execAll_eq := (execAll_append h.execAll_eq).trans h'.execAll_eq
  responses_eq := by rw [h.responses_append, h'.responses_eq]

/-- A command does not see the response given before it. -/
theorem exec_setRsp (i : Instr) (s : State) (r : Option Response) : exec i (s.setRsp r) = exec i s := by
  cases i <;> rfl

theorem Runs.concat {p : Option Response} (hrun : Runs is s (t.setRsp p) rs)
    (h : exec i t = .next (u.setRsp (some r))) : Runs (is ++ [i]) s (u.setRsp (some r)) (rs ++ [r]) :=
  hrun.append (Runs.cons ((exec_setRsp i t p).trans h) (Runs.nil _))

/-- The output presents the last response given. -/
theorem Runs.rsp_eq_getLast (h : Runs is s t rs) (hrs : rs ≠ []) : t.rsp = rs.getLast? := by
  obtain ⟨hstate, rfl⟩ := h
  induction is generalizing s with
  | nil => exact absurd rfl hrs
  | cons i is ih =>
    obtain ⟨u, r, hu, hr, -⟩ := exec_next i s
    rw [execAll_cons hu] at hstate
    rw [responses_cons hu, hr]
    cases is with
    | nil => cases hstate; exact hr
    | cons j js =>
      obtain ⟨v, q, hv, hq, -⟩ := exec_next j u
      have hne : responses (j :: js) u ≠ [] := by simp [responses_cons hv, hq]
      rw [ih hstate hne, List.getLast?_append_of_ne_nil _ hne]

theorem length_responses (is : List Instr) (s : State) : (responses is s).length = is.length := by
  induction is generalizing s with
  | nil => rfl
  | cons i is ih =>
    obtain ⟨u, r, hu, hr, -⟩ := exec_next i s
    rw [responses_cons hu, hr, List.length_append, ih, Nat.add_comm]
    rfl

/-- Commands of other groups leave the registers of a group as they are. -/
theorem execAll_keeps_part {g : SubBlock} (hg : ∀ i ∈ is, g ≠ subBlock i) (h : execAll is s = .next t) :
    g.part t = g.part s := by
  induction is generalizing s with
  | nil => cases h; rfl
  | cons i is ih =>
    obtain ⟨hi, his⟩ := List.forall_mem_cons.mp hg
    obtain ⟨u, -, hu, -, -⟩ := exec_next i s
    rw [execAll_cons hu] at h
    exact (ih his h).trans (exec_keeps_part hi hu)

theorem execAll_next (is : List Instr) (s : State) : ∃ t, execAll is s = .next t := by
  induction is generalizing s with
  | nil => exact ⟨s, rfl⟩
  | cons i is ih =>
    obtain ⟨u, -, hu, -, -⟩ := exec_next i s
    rw [execAll_cons hu]
    exact ih u

end

/-! ### The skip (R142) and the collision that schedules it (R144) -/

section
variable {s : State} {bs : List Byte} {n : Nat}

theorem State.setHrSkip_of_eq {v : BitVec 4} (h : s.hrSkip = v) : s.setHrSkip v = s := by
  subst h; rfl

theorem State.setHrCnt_of_eq {v : BitVec 5} (h : s.hrCnt = v) : s.setHrCnt v = s := by
  subst h; rfl

/-- Bytes that are skipped are counted down, from `n` plus their number to `n`. -/
theorem runs_skip (h : s.hrSkip.toNat = n + bs.length) :
    ∃ r, Runs (bs.map .hrByte) s ((s.setHrSkip (BitVec.ofNat 4 n)).setRsp r)
      ((List.range bs.length).reverse.map fun k => ⟨.hrSkipped, BitVec.ofNat 8 (n + k)⟩) := by
  induction bs generalizing s with
  | nil =>
    have hn : s.hrSkip = BitVec.ofNat 4 n := by
      rw [show n = s.hrSkip.toNat from h.symm, BitVec.ofNat_toNat, BitVec.setWidth_eq]
    rw [State.setHrSkip_of_eq hn]
    exact ⟨s.rsp, Runs.nil s⟩
  | cons b bs ih =>
    rw [List.length_cons] at h
    have hdec : (s.hrSkip - 1#4).toNat = n + bs.length := by bv_omega
    have hdata : zext8 (s.hrSkip - 1#4) = BitVec.ofNat 8 (n + bs.length) := by
      rw [← hdec, BitVec.ofNat_toNat]
      rfl
    obtain ⟨r, hrun⟩ :=
      ih (s := (s.setHrSkip (s.hrSkip - 1#4)).setRsp (some ⟨.hrSkipped, zext8 (s.hrSkip - 1#4)⟩)) hdec
    have hstep := Runs.cons (exec_hrByte_of_skipping (b := b) (by omega)) hrun
    rw [hdata] at hstep
    rw [List.length_cons, List.range_succ, List.reverse_append, List.map_append]
    exact ⟨r, hstep⟩

/-- A collision schedules the discarding of eleven bytes; `n` of them are still to come after the bytes `bs`. -/
theorem runs_collision_partial (hskip : s.hrSkip = 0#4) (hcnt : s.hrCnt = 1#5) (hbs : n + bs.length = 11) :
    ∃ r, Runs (.hrByte 0x9B#8 :: bs.map .hrByte) s (((s.setHrCnt 0#5).setHrSkip (BitVec.ofNat 4 n)).setRsp r)
      (⟨.hrCollision, 0x0B#8⟩ ::
        (List.range bs.length).reverse.map fun k => ⟨.hrSkipped, BitVec.ofNat 8 (n + k)⟩) := by
  obtain ⟨r, hskipped⟩ := runs_skip (n := n) (bs := bs)
    (s := ((s.setHrCnt 0#5).setHrSkip 11#4).setRsp (some ⟨.hrCollision, 0x0B#8⟩)) hbs.symm
  exact ⟨r, Runs.cons (exec_hrByte_of_collision hskip hcnt) hskipped⟩

/-- Eleven bytes after a collision the search starts afresh (R144). -/
theorem runs_collision (hskip : s.hrSkip = 0#4) (hcnt : s.hrCnt = 1#5) (hbs : bs.length = 11) :
    Runs (.hrByte 0x9B#8 :: bs.map .hrByte) s ((s.setHrCnt 0#5).setRsp (some ⟨.hrSkipped, 0x00#8⟩))
      (⟨.hrCollision, 0x0B#8⟩ :: (List.range 11).reverse.map fun k => ⟨.hrSkipped, BitVec.ofNat 8 k⟩) := by
  obtain ⟨r, hrun⟩ := runs_collision_partial (n := 0) (bs := bs) hskip hcnt (by omega)
  have hs : (s.setHrCnt 0#5).setHrSkip 0#4 = s.setHrCnt 0#5 := State.setHrSkip_of_eq hskip
  simp only [Nat.zero_add, hbs, hs] at hrun
  have hr : r = some ⟨.hrSkipped, 0x00#8⟩ := hrun.rsp_eq_getLast (by simp)
  exact hr ▸ hrun

/-- Two sentinels and eleven bytes lead from idle to idle. -/
theorem runs_sync_collision (hskip : s.hrSkip = 0#4) (hcnt : s.hrCnt = 0#5) (hbs : bs.length = 11) :
    Runs (.hrByte 0x9B#8 :: .hrByte 0x9B#8 :: bs.map .hrByte) s (s.setRsp (some ⟨.hrSkipped, 0x00#8⟩))
      (⟨.hrSync, 0x01#8⟩ :: ⟨.hrCollision, 0x0B#8⟩ ::
        (List.range 11).reverse.map fun k => ⟨.hrSkipped, BitVec.ofNat 8 k⟩) := by
  have hcollided := runs_collision (s := (s.setHrCnt 1#5).setRsp (some ⟨.hrSync, 0x01#8⟩)) hskip rfl hbs
  have hrun := Runs.cons (exec_hrByte_of_sync hskip hcnt) hcollided
  have hs : s.setHrCnt 0#5 = s := State.setHrCnt_of_eq hcnt
  change Runs _ s ((s.setHrCnt 0#5).setRsp (some ⟨.hrSkipped, 0x00#8⟩)) _ at hrun
  rwa [hs] at hrun

end

/-! ### The receipt of a packet (R150) -/

/-- The cells `v` with the first `n` of them overwritten by the bytes of `p`. -/
def cellsAfterStoring (p : Vector Byte 18) (n : Nat) (v : Vector (Option Byte) 18) : Vector (Option Byte) 18 :=
  Vector.ofFn fun k : Fin 18 => if k.val < n then some p[k.val] else v[k.val]

/-- `s` in packet mode, the first `n` bytes of `p` stored. -/
def State.receiving (p : Vector Byte 18) (n : Nat) (s : State) : State :=
  (s.setHrCnt (BitVec.ofNat 5 (n + 1))).setHpData (cellsAfterStoring p n s.hpData)

section
variable {s : State} {p : Vector Byte 18} {n : Nat}

theorem cellsAfterStoring_zero (p : Vector Byte 18) (v : Vector (Option Byte) 18) : cellsAfterStoring p 0 v = v := by
  ext k hk : 1
  simp [cellsAfterStoring]

theorem cellsAfterStoring_all (p : Vector Byte 18) (v : Vector (Option Byte) 18) :
    cellsAfterStoring p 18 v = p.map some := by
  ext k hk : 1
  simp [cellsAfterStoring]

theorem cellsAfterStoring_set (p : Vector Byte 18) (v : Vector (Option Byte) 18) (h : n < 18) :
    (cellsAfterStoring p n v).setIfInBounds n (some p[n]) = cellsAfterStoring p (n + 1) v := by
  ext k hk : 1
  rw [Vector.getElem_setIfInBounds]
  simp only [cellsAfterStoring, Vector.getElem_ofFn]
  grind

theorem State.receiving_zero (p : Vector Byte 18) (s : State) : s.receiving p 0 = s.setHrCnt 1#5 := by
  rw [State.receiving, cellsAfterStoring_zero]
  rfl

theorem State.receiving_toNat_hrCnt (p : Vector Byte 18) (s : State) (hn : n < 18) :
    (s.receiving p n).hrCnt.toNat = n + 1 := by
  change (BitVec.ofNat 5 (n + 1)).toNat = n + 1
  rw [BitVec.toNat_ofNat]
  omega

theorem exec_receiving_of_lt (hskip : s.hrSkip = 0#4) (hp : p[0] ≠ 0x9B#8) (hn : n < 17) :
    exec (.hrByte p[n]) (s.receiving p n) =
      .next ((s.receiving p (n + 1)).setRsp (some ⟨.hrStored, BitVec.ofNat 8 (n + 2)⟩)) := by
  have hcnt := State.receiving_toNat_hrCnt p s (show n < 18 by omega)
  have hcol : ¬ ((s.receiving p n).hrCnt = 1#5 ∧ p[n] = 0x9B#8) := by
    rintro ⟨h1, hb⟩
    have hn0 : n = 0 := by simpa [h1] using hcnt.symm
    subst hn0
    exact hp hb
  have hinc : (s.receiving p n).hrCnt + 1#5 = BitVec.ofNat 5 (n + 2) := by bv_omega
  have hdata : zext8 (BitVec.ofNat 5 (n + 2)) = BitVec.ofNat 8 (n + 2) := by
    rw [zext8]
    bv_omega
  rw [exec_hrByte_of_store (s := s.receiving p n) hskip (by omega) hcol, hinc, hdata, hcnt]
  simp only [State.receiving, ← cellsAfterStoring_set p s.hpData (by omega : n < 18)]
  rfl

theorem exec_receiving_last (hskip : s.hrSkip = 0#4) :
    exec (.hrByte p[17]) (s.receiving p 17) =
      .next (((s.setHrCnt 0#5).setHpData (p.map some)).setRsp (some ⟨.hrPktReady, 0x00#8⟩)) := by
  rw [exec_hrByte_of_full (s := s.receiving p 17) hskip rfl, ← cellsAfterStoring_all p s.hpData,
    ← cellsAfterStoring_set p s.hpData (by decide)]
  rfl

theorem runs_receive (hskip : s.hrSkip = 0#4) (hcnt : s.hrCnt = 0#5) (hp : p[0] ≠ 0x9B#8) (hn : n ≤ 17) :
    ∃ r, Runs (.hrByte 0x9B#8 :: (p.toList.take n).map .hrByte) s ((s.receiving p n).setRsp r)
      (⟨.hrSync, 0x01#8⟩ :: (List.range n).map fun k => ⟨.hrStored, BitVec.ofNat 8 (k + 2)⟩) := by
  induction n with
  | zero =>
    rw [State.receiving_zero]
    exact ⟨_, Runs.cons (exec_hrByte_of_sync hskip hcnt) (Runs.nil _)⟩
  | succ n ih =>
    obtain ⟨r, hrun⟩ := ih (by omega)
    have hlen : n < p.toList.length := by rw [Vector.length_toList]; omega
    rw [List.take_succ_eq_append_getElem hlen, Vector.getElem_toList, List.map_append, List.range_succ,
      List.map_append, ← List.cons_append, ← List.cons_append]
    exact ⟨_, hrun.concat (exec_receiving_of_lt hskip hp (by omega))⟩

theorem runs_packet (hskip : s.hrSkip = 0#4) (hcnt : s.hrCnt = 0#5) (hp : p[0] ≠ 0x9B#8) :
    Runs (.hrByte 0x9B#8 :: p.toList.map .hrByte) s
      (((s.setHrCnt 0#5).setHpData (p.map some)).setRsp (some ⟨.hrPktReady, 0x00#8⟩))
      (⟨.hrSync, 0x01#8⟩ :: ((List.range 17).map (fun k => ⟨.hrStored, BitVec.ofNat 8 (k + 2)⟩) ++
        [⟨.hrPktReady, 0x00#8⟩])) := by
  obtain ⟨r, hrun⟩ := runs_receive hskip hcnt hp (Nat.le_refl 17)
  have hsplit : p.toList = p.toList.take 17 ++ [p[17]] := by
    have hlen : 17 < p.toList.length := by simp
    rw [← Vector.getElem_toList hlen, List.take_concat_get', List.take_of_length_le (by simp)]
  rw [hsplit, List.map_append, ← List.cons_append]
  exact hrun.concat (exec_receiving_last hskip)

end

/-! ### What is not announced, and what is not stored (R149, R151) -/

section
variable {i : Instr} {is : List Instr} {s t : State} {bs : List Byte}

/-- A byte moves `HR_CNT` by at most one, so fewer bytes than are missing complete no packet. -/
theorem responses_ne_ready (h : s.hrCnt.toNat + bs.length ≤ 18) :
    ∀ r ∈ responses (bs.map .hrByte) s, r.status ≠ .hrPktReady := by
  induction bs generalizing s with
  | nil => simp [responses]
  | cons b bs ih =>
    rw [List.length_cons] at h
    obtain ⟨t, r, ht, hr, -⟩ := exec_next (.hrByte b) s
    have hle := exec_hrByte_hrCnt_le ht
    rw [List.map_cons, responses_cons ht, hr]
    refine List.forall_mem_cons.mpr ⟨fun hready => ?_, ih (by omega)⟩
    obtain ⟨-, hfull⟩ := (exec_hrByte_ready_iff ht).mp ⟨r.data, by rw [hr, ← hready]⟩
    simp [hfull] at h

theorem responses_idle (hskip : s.hrSkip = 0#4) (hcnt : s.hrCnt = 0#5) {j : Nat} (hj : j < bs.length)
    (hb : ∀ k (hk : k ≤ j), bs[k] ≠ 0x9B#8) :
    (responses (bs.map .hrByte) s)[j]? = some ⟨.hrIdle, 0x00#8⟩ := by
  induction bs generalizing s j with
  | nil => cases hj
  | cons b bs ih =>
    rw [List.map_cons, responses_cons (exec_hrByte_of_idle (b := b) hskip hcnt (hb 0 (Nat.zero_le _)))]
    cases j with
    | zero => rfl
    | succ j =>
      exact ih (s := s.setRsp (some ⟨.hrIdle, 0x00#8⟩)) hskip hcnt (Nat.lt_of_succ_lt_succ hj)
        fun k hk => hb (k + 1) (Nat.succ_le_succ hk)

theorem isHrByte_iff : isHrByte i = true ↔ subBlock i = .resynchronizer := by
  cases i <;> simp [isHrByte, Instr.op, subBlock]

theorem exec_hrByte_keeps_hpData {b : Byte} (h : exec (.hrByte b) s = .next t)
    (hno : ¬ (s.hrSkip = 0#4 ∧ 1 ≤ s.hrCnt.toNat ∧ ¬ (s.hrCnt = 1#5 ∧ b = 0x9B#8))) : t.hpData = s.hpData := by
  ext k hk : 1
  rw [exec_hrByte_cell h ⟨k, hk⟩, if_neg]
  rintro ⟨hskip, hcnt, hcol⟩
  exact hno ⟨hskip, by omega, hcol⟩

/-- From idle the first `HR_BYTE` stores nothing, and until there is a second one nothing else is written. -/
theorem execAll_keeps_hpData (hskip : s.hrSkip = 0#4) (hcnt : s.hrCnt = 0#5) (his : is.countP isHrByte < 2)
    (h : execAll is s = .next t) : t.hpData = s.hpData := by
  induction is generalizing s with
  | nil => cases h; rfl
  | cons i is ih =>
    obtain ⟨u, -, hu, -, -⟩ := exec_next i s
    rw [execAll_cons hu] at h
    by_cases hi : isHrByte i = true
    · obtain ⟨b, rfl⟩ := subBlock_eq_resynchronizer_iff.mp (isHrByte_iff.mp hi)
      rw [List.countP_cons_of_pos hi] at his
      have hrest : ∀ j ∈ is, .resynchronizer ≠ subBlock j := fun j hj hres => by
        have hpos := List.countP_pos_iff.mpr ⟨j, hj, isHrByte_iff.mpr hres.symm⟩
        omega
      obtain ⟨-, -, hlater⟩ := SubBlock.part_resynchronizer_eq_iff.mp (execAll_keeps_part hrest h)
      exact hlater.trans (exec_hrByte_keeps_hpData hu (by simp [hcnt]))
    · rw [List.countP_cons_of_neg hi] at his
      obtain ⟨hcnt', hskip', hdata⟩ := SubBlock.part_resynchronizer_eq_iff.mp
        (exec_keeps_part (fun hres => hi (isHrByte_iff.mpr hres.symm)) hu)
      exact (ih (hskip'.trans hskip) (hcnt'.trans hcnt) his h).trans hdata

end

/-! ### The reachable pairs of counters (R148) -/

section
variable {s : State} {S N : Nat}

theorem State.HrInRange.counters (hs : s.HrInRange) :
    (s.hrSkip.toNat = 0 ∧ s.hrCnt.toNat = 0) ∨ (s.hrSkip.toNat = 0 ∧ 1 ≤ s.hrCnt.toNat ∧ s.hrCnt.toNat ≤ 18) ∨
      (1 ≤ s.hrSkip.toNat ∧ s.hrSkip.toNat ≤ 11 ∧ s.hrCnt.toNat = 0) := by
  obtain ⟨hcnt, hskip, hzero⟩ := hs
  have hzero' : 0 < s.hrSkip.toNat → s.hrCnt.toNat = 0 := fun h => by rw [hzero h]; rfl
  omega

theorem idle_reaches_hrCnt (hskip : s.hrSkip = 0#4) (hcnt : s.hrCnt = 0#5) (hN : N ≤ 18) :
    ∃ (bs : List Byte) (t : State),
      execAll (bs.map .hrByte) s = .next t ∧ t.hrSkip.toNat = 0 ∧ t.hrCnt.toNat = N := by
  have hskip' : s.hrSkip.toNat = 0 := by rw [hskip]; rfl
  cases N with
  | zero => exact ⟨[], s, rfl, hskip', by rw [hcnt]; rfl⟩
  | succ n =>
    obtain ⟨r, hrun⟩ := runs_receive (p := Vector.replicate 18 0x00#8) (n := n) hskip hcnt (by simp) (by omega)
    refine ⟨0x9B#8 :: _, _, hrun.execAll_eq, hskip', ?_⟩
    rw [State.setRsp_hrCnt, State.receiving_toNat_hrCnt _ s hN]

theorem idle_reaches_hrSkip (hskip : s.hrSkip = 0#4) (hcnt : s.hrCnt = 0#5) (hS : S ≤ 11) :
    ∃ (bs : List Byte) (t : State),
      execAll (bs.map .hrByte) s = .next t ∧ t.hrSkip.toNat = S ∧ t.hrCnt.toNat = 0 := by
  have hsync := exec_hrByte_of_sync hskip hcnt
  obtain ⟨r, hrun⟩ := runs_collision_partial (s := (s.setHrCnt 1#5).setRsp (some ⟨.hrSync, 0x01#8⟩)) (n := S)
    (bs := List.replicate (11 - S) 0x00#8) hskip rfl (by rw [List.length_replicate]; omega)
  refine ⟨0x9B#8 :: 0x9B#8 :: _, _, (Runs.cons hsync hrun).execAll_eq, ?_, rfl⟩
  change (BitVec.ofNat 4 S).toNat = S
  rw [BitVec.toNat_ofNat]
  omega

end

/-! ### The statements -/

/-- Settles O39: the equation of a skipped byte, and the run of a collision. -/
theorem hrByteSkips : Obligations.HrByteSkips := by
  refine ⟨fun b s => exec_hrByte_of_skipping, fun x s hskip hcnt => ?_⟩
  have hrun := runs_collision hskip hcnt x.length_toList
  exact ⟨hrun.execAll_eq, hrun.responses_eq⟩

/-- Settles O41: the equation of a collision, and its run. -/
theorem hrByteCollides : Obligations.HrByteCollides := by
  intro s hskip hcnt
  refine ⟨exec_hrByte_of_collision hskip hcnt, fun x => ?_⟩
  exact ⟨_, (runs_collision hskip hcnt x.length_toList).execAll_eq, rfl, hskip, rfl⟩

/-- Settles O45: a sentinel and fewer than 18 bytes reach the packet's counts, two sentinels and fewer than 12 bytes the
skip's; the transitions are the cases of `HR_BYTE`, by what each does to the counters, the cells and the response. -/
theorem resyncStateGraph : Obligations.ResyncStateGraph := by
  refine ⟨fun S N h => ?_, fun b s hs => ?_⟩
  · obtain ⟨rfl, hN⟩ | ⟨-, hS, rfl⟩ := h
    · exact idle_reaches_hrCnt rfl rfl hN
    · exact idle_reaches_hrSkip rfl rfl hS
  · obtain ⟨-, hrange, -⟩ := hs
    obtain ⟨t, -, ht, -, -⟩ := exec_next (.hrByte b) s
    refine ⟨hrange.counters, t, ht, exec_hrByte_counters hrange ht, fun k => ?_, ?_⟩
    · simpa [← BitVec.toNat_inj] using exec_hrByte_cell ht k
    · simpa [← BitVec.toNat_inj] using exec_hrByte_ready_iff ht

/-- Settles O46: the sentinel, seventeen stored bytes and the one that completes the packet. -/
theorem sentinelAndEighteenBytesMakeAPacket : Obligations.SentinelAndEighteenBytesMakeAPacket := by
  intro p s hskip hcnt hp
  obtain ⟨hstate, hresponses⟩ := runs_packet hskip hcnt hp
  refine ⟨?_, hresponses⟩
  rw [hstate, ← hcnt]
  rfl

/-- Settles O47: the third sentinel is the first of the eleven skipped bytes, and the six bytes after them are
examined from idle. -/
theorem collisionEmitsNoFalsePacket : Obligations.CollisionEmitsNoFalsePacket := by
  intro x s hskip hcnt stream rs
  have hrun := runs_sync_collision hskip hcnt (bs := 0x9B#8 :: x.toList.take 10) (by simp)
  have hsplit : stream.map Instr.hrByte = (.hrByte 0x9B#8 :: .hrByte 0x9B#8 ::
      (0x9B#8 :: x.toList.take 10).map .hrByte) ++ (x.toList.drop 10).map .hrByte := by
    simp [stream]
  have hrs : rs = _ := (congrArg (responses · s) hsplit).trans (hrun.responses_append _)
  refine ⟨?_, ?_, fun j hj => ?_, ?_⟩
  · rw [length_responses]
    simp [stream]
  · rw [hrs]
    exact List.take_left' rfl
  · have hidle := responses_idle (s := s.setRsp (some ⟨.hrSkipped, 0x00#8⟩)) (bs := x.toList.drop 10) (j := j.val)
      hskip hcnt (by simp) (fun k hk => by simpa using hj ⟨k, by omega⟩ hk)
    rw [hrs, List.getElem?_append_right (by simp)]
    simpa using hidle
  · rw [hrs, List.forall_mem_append]
    exact ⟨by decide, responses_ne_ready (s := s.setRsp _) (by simp [hcnt])⟩

/-- Settles O48: only the storing cases write a cell, and from idle the first `HR_BYTE` takes none of them. -/
theorem readyPacketIsStable : Obligations.ReadyPacketIsStable := by
  refine ⟨fun i s t h hne => ?_, fun is s hskip hcnt his => ?_⟩
  · have hi : subBlock i = .resynchronizer := by
      refine subBlock_eq_of_part_ne h fun hpart => ?_
      obtain ⟨-, -, hdata⟩ := SubBlock.part_resynchronizer_eq_iff.mp hpart
      exact hne hdata
    obtain ⟨b, rfl⟩ := subBlock_eq_resynchronizer_iff.mp hi
    exact ⟨b, rfl, by_contra fun hno => hne (exec_hrByte_keeps_hpData h hno)⟩
  · obtain ⟨t, ht⟩ := execAll_next is s
    exact ⟨t, ht, execAll_keeps_hpData hskip hcnt his ht⟩

/-- Settles O58: the fields by the write set of the resynchronizer's commands, the packet's cells one at a time. -/
theorem frameOfHrByte : Obligations.FrameOfHrByte := by
  intro b s t h
  have hcells (k : Fin 18)
      (hk : k.val + 1 ≠ s.hrCnt.toNat ∨ s.hrSkip.toNat ≠ 0 ∨ (s.hrCnt = 1#5 ∧ b = 0x9B#8)) :
      t.hpData[k.val] = s.hpData[k.val] := by
    rw [exec_hrByte_cell h k, if_neg]
    rintro ⟨hskip, hcnt, hcol⟩
    obtain hk | hk | hk := hk
    · exact hk hcnt.symm
    · exact hk (by rw [hskip]; rfl)
    · exact hcol hk
  rw [exec_resynchronizer_writes rfl h]
  exact ⟨rfl, rfl, rfl, rfl, rfl, fun _ => rfl, fun _ => rfl, hcells⟩

/-- Settles O40, by the second case of R141. -/
theorem hrByteSyncs : Obligations.HrByteSyncs := by
  intro s hskip hcnt
  exact exec_hrByte_of_sync hskip hcnt

/-- Settles O42: below the 18th byte the store is the plain write of the cell. -/
theorem hrByteStores : Obligations.HrByteStores := by
  intro b s hcnt hskip hb
  rw [exec_hrByte_of_store hskip hcnt fun ⟨hone, hb'⟩ => hb hone hb', storeHpData_of_lt _ _ _ (by omega)]
  rfl

/-- Settles O43, by the storing case with all 18 counted. -/
theorem hrByteCompletesThePacket : Obligations.HrByteCompletesThePacket := by
  intro b s hskip hcnt
  rw [exec_hrByte_of_full hskip hcnt, storeHpData_of_lt _ _ _ (by decide)]
  rfl

/-- Settles O44, by the last case of R141. -/
theorem hrByteIdles : Obligations.HrByteIdles := by
  intro b s hskip hcnt hb
  exact exec_hrByte_of_idle hskip hcnt hb

end Sys2Proof.Machine

/-! The system commands (44_system_commands.md): `NOP` (R171), and `RD` at a mapped address, at a cell and at an unmapped
address (R172, R174, R51). -/

namespace Sys2Proof.Machine

section
variable {i : Instr} {s t : State} {a : Byte} {r : Reg}

/-! ### What a system command leaves -/

theorem exec_nop (s : State) : exec .nop s = .next (s.setRsp (some ⟨.ok, 0x00#8⟩)) := rfl

/-- R45, R171: the system commands own no register. -/
theorem exec_system_sameRegisters (hi : subBlock i = .system) (h : exec i s = .next t) : s.SameRegisters t := by
  rw [exec_system_writes hi h]
  exact ⟨rfl, rfl, rfl, rfl, rfl, rfl, rfl, rfl⟩

/-! ### `RD` at a mapped address (R172) -/

/-- The state after a read that gave a byte and left a count of free bytes drawn: the byte is answered under `OK`. -/
def State.afterRead (s : State) (read : Byte × Nat) : State :=
  { s with rsp := some ⟨.ok, read.1⟩, draws := read.2 }

theorem exec_rd_of_mapped (h : regAt a = some r) : exec (.rd a) s = .next (s.afterRead (readReg r s)) :=
  exec_rd_of_regAt h

theorem exec_rd_fbData (i : Fin 10) (s : State) :
    exec (.rd (BitVec.ofNat 8 (0x10 + i.val))) s = .next (s.afterRead (readCell s.fbData[i.val] s.draws)) :=
  exec_rd_of_mapped (regAt_fbData i)

theorem exec_rd_kFrame (i : Fin 9) (s : State) :
    exec (.rd (BitVec.ofNat 8 (0x20 + i.val))) s = .next (s.afterRead (readCell s.kFrame[i.val] s.draws)) :=
  exec_rd_of_mapped (regAt_kFrame i)

theorem exec_rd_hpData (i : Fin 18) (s : State) :
    exec (.rd (BitVec.ofNat 8 (0x40 + i.val))) s = .next (s.afterRead (readCell s.hpData[i.val] s.draws)) :=
  exec_rd_of_mapped (regAt_hpData i)

/-- R26: `FB_STAT` as a test of the two counters. -/
theorem fbStat_eq_ite (s : State) : fbStat s = if s.fbPos = s.fbCap then 0x01#8 else 0x00#8 := by
  simp only [fbStat, fbComplete_iff]

/-! ### `RD` at an unmapped address (R51) -/

/-- The unmapped addresses are the gaps between the ranges of R41. -/
theorem regAt_eq_none_iff : regAt a = none ↔
    0x06 ≤ a.toNat ∧ a.toNat ≤ 0x0F ∨ 0x1A ≤ a.toNat ∧ a.toNat ≤ 0x1F ∨ 0x29 ≤ a.toNat ∧ a.toNat ≤ 0x3F ∨
      0x52 ≤ a.toNat := by
  rw [← Option.isSome_eq_false_iff.trans Option.isNone_iff_eq_none, isSome_regAt]
  simp only [mappedAddress, Bool.or_eq_false_iff, Bool.and_eq_false_iff, decide_eq_false_iff_not]
  omega

theorem exec_rd_of_unmapped (h : regAt a = none) :
    exec (.rd a) s = .next (s.setRsp (some ⟨.errBadArg, 0x00#8⟩)) := by
  change execRd a s = _
  rw [execRd, memRead, h]
  rfl

end

/-! ### The statements -/

/-- Settles O50: the address map says what each address names, and `RD` answers what that reads as. A written cell reads
as its byte and draws nothing. -/
theorem rdAnswersTheMappedByte : Obligations.RdAnswersTheMappedByte := by
  intro s
  refine ⟨exec_rd_of_mapped (r := .crcAcc) rfl, exec_rd_of_mapped (r := .fbPos) rfl, exec_rd_of_mapped (r := .fbCap) rfl,
    ?fbStat, exec_rd_of_mapped (r := .hrCnt) rfl, exec_rd_of_mapped (r := .hrSkip) rfl, fun i b hb => ?fbData,
    fun i b hb => ?kFrame, fun i b hb => ?hpData, fun a ha => exec_rd_of_unmapped (regAt_eq_none_iff.mpr ha),
    fun a ha => ?mapped⟩
  case fbStat =>
    rw [← fbStat_eq_ite]
    exact exec_rd_of_mapped (r := .fbStat) rfl
  case fbData => rw [exec_rd_fbData, hb]; rfl
  case kFrame => rw [exec_rd_kFrame, hb]; rfl
  case hpData => rw [exec_rd_hpData, hb]; rfl
  case mapped =>
    obtain ⟨r, hr⟩ := Option.isSome_iff_exists.mp ((isSome_regAt a).trans ha)
    exact ⟨_, _, exec_rd_of_mapped hr⟩

/-- Settles O53: neither command owns a register, and no meaning touches the port. -/
theorem frameOfNopAndRd : Obligations.FrameOfNopAndRd := by
  refine ⟨fun s t h => ?_, fun a s => ?_⟩
  · refine ⟨exec_system_sameRegisters rfl h, ?_⟩
    rw [execNop_cases h]
    exact ⟨rfl, rfl⟩
  · obtain ⟨t, -, ht, -, hport⟩ := exec_next (.rd a) s
    exact ⟨t, ht, exec_system_sameRegisters rfl ht, hport⟩

/-- Settles O49: the word of `NOP` is the all-zero word, the only assigned one with its `op`; presenting it and presenting
nothing both take the cycle off the port, and only the first answers. -/
theorem nopDoesNothing : Obligations.NopDoesNothing := by
  refine ⟨exec_nop, rfl, fun a ha => ?_, fun s rest => ⟨?_, ?_⟩⟩
  · rw [decode_eq_nonzeroArg_iff, opField_append, argField_append]
    exact ⟨.inl rfl, ha⟩
  · exact (step_presents_encode .nop s rest).trans (exec_nop _)
  · exact step_of_idle (s := s.setPort (PortIn.idle :: rest)) rfl rfl

/-- Settles O51: `RD` of a cell reads the cell, and reading an absent one draws a free byte. -/
theorem rdOfAnUnwrittenCellIsFree : Obligations.RdOfAnUnwrittenCellIsFree := by
  refine ⟨fun s i hi => ?_, fun s i hi => ?_, fun s i hi => ?_⟩
  · rw [exec_rd_fbData, hi]; rfl
  · rw [exec_rd_kFrame, hi]; rfl
  · rw [exec_rd_hpData, hi]; rfl

end Sys2Proof.Machine

/-! The error outcomes (60_exceptions.md R185): an answer with one of the five error statuses, from a command or to a reserved
word, comes with unchanged registers, and `HR_COLLISION` comes with the one transition of the resynchronizer that gives it. -/

namespace Sys2Proof.Machine

/-- The five statuses of R185 that stand for "no state change". -/
abbrev Status.IsError (st : Status) : Prop :=
  st = .errIllegalOp ∨ st = .errBadArg ∨ st = .fbDropped ∨ st = .kpCrcFail ∨ st = .kpNotReady

section
variable {i : Instr} {s t : State} {w : CmdWord} {rest : List PortIn} {st : Status} {d : Byte}

/-! ### One command -/

/-- The generator and the resynchronizer answer no error, the system commands own no register, and a command of the buffer
or the parser that answers an error writes at most the count of free bytes drawn. -/
theorem exec_error_sameRegisters (h : exec i s = .next t) (hr : t.rsp = some ⟨st, d⟩) (hst : st.IsError) :
    s.SameRegisters t := by
  obtain ⟨st', d', hr', hstatus⟩ := statusesOfEachCommand i s t h
  cases hr.symm.trans hr'
  cases i with
  | nop | rd _ => exact exec_system_sameRegisters rfl h
  | crcInit | crcUpd _ =>
    subst hstatus
    exact absurd hst (by decide)
  | fbArm n =>
    obtain ⟨-, rfl⟩ | ⟨-, rfl⟩ := execFbArm_cases h
    · cases hr
      exact absurd hst (by decide)
    · exact ⟨rfl, rfl, rfl, rfl, rfl, rfl, rfl, rfl⟩
  | fbPush b =>
    obtain ⟨-, rfl⟩ | ⟨-, rfl⟩ := execFbPush_cases h
    · exact ⟨rfl, rfl, rfl, rfl, rfl, rfl, rfl, rfl⟩
    · cases hr
      exact absurd hst (by decide)
  | kpParse =>
    obtain ⟨-, rfl⟩ | ⟨-, -, rfl⟩ | ⟨-, -, rfl⟩ := execKpParse_cases h
    · exact ⟨rfl, rfl, rfl, rfl, rfl, rfl, rfl, rfl⟩
    · cases hr
      exact absurd hst (by decide)
    · exact ⟨rfl, rfl, rfl, rfl, rfl, rfl, rfl, rfl⟩
  | hrByte b =>
    obtain rfl | rfl | rfl | rfl | rfl | rfl := hstatus <;> exact absurd hst (by decide)

/-- Only `HR_BYTE` answers a collision, and only in the case of R144. -/
theorem exec_collision (h : exec i s = .next t) (hr : t.rsp = some ⟨.hrCollision, d⟩) :
    t = ((s.setHrCnt 0#5).setHrSkip 11#4).setRsp (some ⟨.hrCollision, 0x0B#8⟩) := by
  obtain ⟨st', d', hr', hstatus⟩ := statusesOfEachCommand i s t h
  cases hr.symm.trans hr'
  cases i with
  | hrByte b =>
    obtain ⟨-, rfl⟩ | ⟨-, -, -, rfl⟩ | ⟨-, -, -, rfl⟩ | ⟨-, -, -, -, rfl⟩ | ⟨-, -, rfl⟩ | ⟨-, -, -, rfl⟩ :=
      execHrByte_cases h
    · cases hr
    · cases hr
    · rfl
    · cases hr
    · cases hr
    · cases hr
  | _ => simp at hstatus

/-! ### One presented word -/

/-- A presented word is answered as reserved, or is a command that runs on the state without its cycle. -/
theorem step_command_cases (h : step (s.setPort (PortIn.command w :: rest)) = .next t) :
    t = (s.setPort rest).setRsp (some ⟨.errIllegalOp, 0x00#8⟩) ∨ ∃ i, exec i (s.setPort rest) = .next t := by
  obtain ⟨hrst, -⟩ | ⟨-, hvalid, -⟩ | ⟨_, -, ht⟩ | ⟨i, -, hexec⟩ := step_cases h
  · cases hrst
  · cases hvalid
  · exact .inl ht
  · exact .inr ⟨i, hexec⟩

end

/-! ### The statement -/

/-- Settles O17: for a reserved word, whose answer is `ERR_ILLEGAL_OP`, by its one next state; for a command by what it can
do under the status it answers. -/
theorem errorOutcomesChangeNoState : Obligations.ErrorOutcomesChangeNoState := by
  intro s t w rest r h hr
  obtain ⟨st, d⟩ := r
  obtain rfl | ⟨i, hexec⟩ := step_command_cases h
  · cases hr
    exact ⟨fun _ => ⟨rfl, rfl, rfl, rfl, rfl, rfl, rfl, rfl⟩, fun hcol => by cases hcol⟩
  · refine ⟨exec_error_sameRegisters (s := s.setPort rest) hexec hr, ?_⟩
    rintro ⟨⟩
    rw [exec_collision hexec hr]
    exact ⟨rfl, rfl, rfl, rfl, rfl, rfl, rfl, rfl⟩

end Sys2Proof.Machine

/-! Reset, the late byte after a rearm and the state a host finds after reset (70_reset_and_hazards.md R200, R201, R203). -/

namespace Sys2Proof.Machine

/-! ### The parse of a held frame, and the one byte that makes it valid (R121, R122) -/

theorem State.HoldsFrame.exec_kpParse_ok_iff {s : State} {f : Vector Byte 10} (hs : s.HoldsFrame f) :
    ∃ t, exec .kpParse s = .next t ∧ ((∃ d, t.rsp = some ⟨.ok, d⟩) ↔ crc8 (f.toList.take 9) = f[9]) := by
  by_cases hf : f[9] = crc8 (f.toList.take 9)
  · exact ⟨_, hs.exec_kpParse_of_crc_eq hf, fun _ => hf.symm, fun _ => ⟨_, rfl⟩⟩
  · refine ⟨_, hs.exec_kpParse_of_crc_ne hf, ?_, fun hcrc => absurd hcrc.symm hf⟩
    rintro ⟨d, ⟨⟩⟩

theorem frameValid_concat_iff {nine : List Byte} {c : Byte} (h : nine.length = 9) :
    frameValid (nine ++ [c]) = true ↔ c = crc8 nine := by
  rw [frameValid_iff_crc8_eq_zero (by rw [List.length_append, h, List.length_singleton]), crc8_concat_eq_zero_iff]

/-! ### A frame behind a late byte (R203) -/

/-- The ten bytes the buffer takes when a late byte comes ahead of the frame `f`. -/
def shiftedFrame (late : Byte) (f : Vector Byte 10) : Vector Byte 10 :=
  ⟨(late :: f.toList.take 9).toArray, by simp⟩

section
variable (late : Byte) (f : Vector Byte 10)

theorem toList_shiftedFrame : (shiftedFrame late f).toList = late :: f.toList.take 9 := rfl

theorem toList_shiftedFrame_take : (shiftedFrame late f).toList.take 9 = late :: f.toList.take 8 := by
  rw [toList_shiftedFrame, List.take_succ_cons, List.take_take]
  rfl

theorem shiftedFrame_last : (shiftedFrame late f)[9] = f[8] := by
  simp [shiftedFrame]

/-- A late byte and a frame are the shifted frame and, an eleventh byte, the frame's last. -/
theorem late_cons_frame_eq : late :: f.toList = (shiftedFrame late f).toList ++ [f[9]] := by
  have hsplit : f.toList.take 9 ++ [f[9]] = f.toList := by
    rw [← Vector.getElem_toList (by simp), List.take_concat_get', List.take_of_length_le f.length_toList.le]
  rw [toList_shiftedFrame, List.cons_append, hsplit]

/-- The ten bytes of the shifted frame fill the buffer, so the eleventh push is dropped. -/
theorem execAll_arm_push_late_frame (s : State) :
    ∃ t, execAll (.fbArm 0x0A#8 :: .fbPush late :: f.toList.map .fbPush) s = .next t ∧
      t.rsp = some ⟨.fbDropped, 0x0A#8⟩ ∧ t.HoldsFrame (shiftedFrame late f) := by
  obtain ⟨t, ht, hheld, -⟩ := execAll_arm_push_frame (shiftedFrame late f) s
  have hdrop := exec_fbPush_of_eq (b := f[9]) (hheld.pos.trans hheld.cap.symm)
  rw [hheld.pos] at hdrop
  refine ⟨t.setRsp _, ?_, rfl, ⟨hheld.cap, hheld.pos, hheld.data⟩⟩
  rw [← List.map_cons, late_cons_frame_eq, List.map_append, ← List.cons_append, execAll_append ht]
  exact execAll_cons hdrop

end

/-! ### The statements -/

/-- Settles O33: the buffer holds the shifted frame, whose last byte is the ninth of the frame sent; the parse validates the
shifted frame like any other, and the tenth byte that makes nine bytes valid is their checksum. -/
theorem lateByteShiftsTheFrame : Obligations.LateByteShiftsTheFrame := by
  refine ⟨fun late f s => ?_, fun nine hnine => ?_⟩
  · obtain ⟨t, ht, hrsp, hheld⟩ := execAll_arm_push_late_frame late f s
    obtain ⟨u, hu, hok⟩ := hheld.exec_kpParse_ok_iff
    rw [toList_shiftedFrame_take, shiftedFrame_last] at hok
    refine ⟨t, u, ht, hrsp, ?_, hu, hok⟩
    rw [hheld.data, Vector.toList_map, toList_shiftedFrame]
  · exact ⟨crc8 nine, (frameValid_concat_iff hnine).mpr rfl, fun c => (frameValid_concat_iff hnine).mp⟩

/-- Settles O12: the equation of the step for a cycle with `rst = 1`, whatever command it carries. -/
theorem resetCycleResetsEverything : Obligations.ResetCycleResetsEverything := by
  intro s c rest hrst
  exact step_of_rst (s := s.setPort (c :: rest)) hrst

/-- Settles O13: the equation of each command in the case the reset state falls under. Position and capacity are both 0, so
the buffer is complete but not for a frame, and the empty port presents an idle cycle. -/
theorem afterResetAsTheHostSeesIt : Obligations.AfterResetAsTheHostSeesIt := by
  obtain ⟨hcrc, hpos, hcap, hstat, hcnt, hskip, -⟩ := rdAnswersTheMappedByte State.reset
  exact ⟨hcrc, hpos, hcap, hstat, hcnt, hskip, fun _ => exec_fbPush_of_eq rfl, exec_kpParse_of_not_ready rfl,
    rfl, rfl, rfl, step_of_idle rfl rfl⟩

end Sys2Proof.Machine
